-- ==== Sys2Proof/Word.lean ====
section
/-! DEFINITION. The word types of the CHIP-8 core and nothing else: a byte, a 16-bit word, a
12-bit address operand and the index of a general register (spec R4, R7, R51). -/

namespace Sys2Proof

/-- An 8-bit value: a general register, a timer, a memory cell, an immediate `kk` (R4, R51). -/
abbrev Byte := BitVec 8

/-- A 16-bit value: an instruction word, PC, I, a return address (R4). -/
abbrev Word := BitVec 16

/-- The 12-bit address operand `nnn` (R51, R52). -/
abbrev Addr12 := BitVec 12

/-- The index of a general register, 0 to 15 (R10). -/
abbrev Reg := Fin 16

/-- The row count `n` of DRW, 0 to 15 (R52). -/
abbrev RowCount := Fin 16

/-- VF, the register that doubles as the carry, not-borrow and collision flag (R11). -/
abbrev Reg.vf : Reg := 15

/-- V0, the register JP_V0 adds to its operand (R10, R88). -/
abbrev Reg.v0 : Reg := 0

end Sys2Proof
end

