-- ==== Sys2Proof/Config.lean ====
section
/-! DEFINITION. What is fixed for the machine and never changes as it runs: the sizes and bases
the source fixes (R4), the parameters the source leaves open with the defaults the spec takes
(R5), and the one free value, the random byte nobody supplies (R23). -/

namespace Sys2Proof.Config

/-- MEM_SIZE: the memory has the byte addresses 0 to 0xFFF (R4). -/
abbrev memSize : Nat := 4096

/-- ROM_BASE, the reset value of PC (R4, R13). -/
abbrev romBase : Word := 0x200

/-- FONT_BASE, the address LD_F counts from (R4, R113). -/
abbrev fontBase : Nat := 0x50

/-- The two parameters of the core the source leaves open (R5, U11, U12).  A value of this type is
held in `State.params` and no step changes it, so a statement about every state is a statement
about every value of the parameters.  `stackDepth = none` is the unbounded stack of the source's
own text (R16).  DESIGN CHOICE (log 3). -/
structure Params where
  /-- STACK_DEPTH, the most return addresses the call stack holds. -/
  stackDepth : Option Nat := some 16
  /-- FONT_STRIDE, the bytes of one glyph. -/
  fontStride : Nat := 5
  deriving DecidableEq, Repr

/-- FREE VALUE (R23, D22, U8): the random byte of the n-th cycle for which the surroundings have
supplied none.  It has no body, so nothing can be proved about it.  DESIGN CHOICE (log 2). -/
opaque freeRnd : Nat → Byte

/-- The conventional font image, sixteen glyphs of five rows, that a loader may place at FONT_BASE: bytes
for a load, no part of the core, and no rule depends on them (R165, G5).  PRESUMED by the spec
(log 16). -/
def conventionalFont : List Byte :=
  [0xF0, 0x90, 0x90, 0x90, 0xF0] ++
  [0x20, 0x60, 0x20, 0x20, 0x70] ++
  [0xF0, 0x10, 0xF0, 0x80, 0xF0] ++
  [0xF0, 0x10, 0xF0, 0x10, 0xF0] ++
  [0x90, 0x90, 0xF0, 0x10, 0x10] ++
  [0xF0, 0x80, 0xF0, 0x10, 0xF0] ++
  [0xF0, 0x80, 0xF0, 0x90, 0xF0] ++
  [0xF0, 0x10, 0x20, 0x40, 0x40] ++
  [0xF0, 0x90, 0xF0, 0x90, 0xF0] ++
  [0xF0, 0x90, 0xF0, 0x10, 0xF0] ++
  [0xF0, 0x90, 0xF0, 0x90, 0x90] ++
  [0xE0, 0x90, 0xE0, 0x90, 0xE0] ++
  [0xF0, 0x80, 0x80, 0x80, 0xF0] ++
  [0xE0, 0x90, 0x90, 0x90, 0xE0] ++
  [0xF0, 0x80, 0xF0, 0x80, 0xF0] ++
  [0xF0, 0x80, 0xF0, 0x80, 0x80]

end Sys2Proof.Config
end

