-- ==== Sys2Proof/Machine/State.lean ====
section
/-! DEFINITION. The state of the machine as plain data: every piece of state spec/10_state.md gives
the core, then the model's own fields (the inputs of the cycle and what the surroundings will do
next, the counter of the free value, the parameters and the answer to a load); its reset value
(R26, R160); and the reasons a step can stop. -/

namespace Sys2Proof.Machine

/-- MEM, a list of (address, byte) pairs in the canonical form `Memory.wf`: addresses rising, and no
entry equal to 0, which is what an unlisted address reads as (R17, R26, R36). -/
abbrev Memory := List Host.Cell

/-- FB, the 64×32 grid of one-bit cells: 32 rows, top first, of 64 columns, left first (R18). -/
abbrev Framebuffer := Vector (Vector Bool 64) 32

/-- The blank framebuffer: all 2048 cells unset (R18, R26). -/
def blankFramebuffer : Framebuffer := Vector.replicate 32 (Vector.replicate 64 false)

/-- The legal values of the FAULT register: why the core is halted, or `none` (R24, R140). -/
inductive FaultCause where
  /-- 0: the core runs. -/
  | none
  /-- 1: a RET found the call stack empty (R141). -/
  | stackUnderflow
  /-- 2: a CALL found the call stack full (R149). -/
  | stackOverflow
  /-- 3: an instruction fetch reached above 0xFFF (R142). -/
  | fetchOutOfRange
  /-- 4: a data access reached above 0xFFF (R142). -/
  | memOutOfRange
  deriving DecidableEq, Repr

/-- PHASE: LOADING after reset, RUNNING from the first cycle on (R29). -/
inductive Phase where
  | loading
  | running
  deriving DecidableEq, Repr

/-- One thing the surroundings do to the core (R6, R166).  Each is one whole step (R38). -/
inductive HostAction where
  /-- The host resets the core (R160). -/
  | reset
  /-- The loader loads bytes from a base address (R164). -/
  | load (base : Nat) (bytes : List Byte)
  /-- The host issues a cycle, with the KEYS and RND of that cycle (R22, R23, R70). -/
  | cycle (keys : BitVec 16) (rnd : Byte)
  /-- The timer driver ticks (R150). -/
  | tick
  deriving DecidableEq, Repr

/-- What a load gives back to the host (R164, R166). -/
inductive LoadReply where
  /-- The bytes were written. -/
  | accepted
  /-- The load is too long for the memory and was refused whole. -/
  | loadError
  /-- Loading is not allowed now: the run has begun or the core is halted. -/
  | notEnabled
  deriving DecidableEq, Repr

/-- The machine.  The first fifteen fields are the spec's (spec/10_state.md); the last six are the
model's own. -/
structure State where
  /-- V0 to VF, the general registers (R10); VF = V[15] doubles as the flag (R11). -/
  v : Vector Byte 16
  /-- I, the index register (R12). -/
  i : Word
  /-- PC: between cycles, the address of the next instruction (R13). -/
  pc : Word
  /-- STACK, the return addresses, oldest first; its length is SP (R16). -/
  stack : List Word
  /-- MEM (R17). -/
  mem : Memory
  /-- FB (R18). -/
  fb : Framebuffer
  /-- DT, the delay timer (R19). -/
  dt : Byte
  /-- ST, the sound timer (R19). -/
  st : Byte
  /-- DIRTY: the last cycle changed or cleared the display (R20). -/
  dirty : Bool
  /-- UNK: the last cycle executed UNKNOWN (R21). -/
  unk : Bool
  /-- UNK_WORD: the word of the last UNKNOWN (R21). -/
  unkWord : Word
  /-- FAULT, as its cause; its 3-bit code is `FaultCause.code` (R24). -/
  fault : FaultCause
  /-- FAULT_PC: the address of the instruction whose cycle faulted (R24). -/
  faultPc : Word
  /-- FAULT_INFO: the offending address or the fetched word (R24). -/
  faultInfo : BitVec 17
  /-- PHASE (R29). -/
  phase : Phase
  /-- MODEL'S OWN (log 1): KEYS of the cycle being executed, latched as it begins (R22). -/
  keys : BitVec 16
  /-- MODEL'S OWN (log 1): RND of the cycle being executed, latched as it begins (R23). -/
  rnd : Byte
  /-- MODEL'S OWN (log 2): how many free random bytes have been drawn. -/
  draws : Nat
  /-- MODEL'S OWN (log 1): what the surroundings do next, first action first (R6, R151, R166). -/
  pending : List HostAction
  /-- MODEL'S OWN (log 5): the answer to the last load (R164, R166). -/
  loadReply : Option LoadReply
  /-- MODEL'S OWN (log 3): STACK_DEPTH and FONT_STRIDE, which no step changes (R5, R27). -/
  params : Config.Params
  deriving DecidableEq, Repr

/-- The state after reset (R26, R160).  The model's own fields: no input latched, no action of the
surroundings pending, no load made, the default parameters (log 14). -/
def State.reset : State where
  v := Vector.replicate 16 0
  i := 0
  pc := Config.romBase
  stack := []
  mem := []
  fb := blankFramebuffer
  dt := 0
  st := 0
  dirty := false
  unk := false
  unkWord := 0
  fault := .none
  faultPc := 0
  faultInfo := 0
  phase := .loading
  keys := 0
  rnd := 0
  draws := 0
  pending := []
  loadReply := none
  params := {}

/-- Why a step stops. -/
inductive Fault where
  /-- Raised by `cycle` when a cycle is asked of a halted core (R144): a halted core takes no
  cycle, and a model treats the halted state as a fault, not as an end.  SAFE: the core changes
  nothing there either.  The fault that HALTS the core is a next state, with its record (R143). -/
  | halted (cause : FaultCause)
  deriving DecidableEq, Repr

/-- Why a step is refused. -/
inductive Refusal where
  /-- Answered only by an arm of `exec` whose instruction has no meaning yet.  SAFE. -/
  | notModelled (mnemonic : String)
  deriving DecidableEq, Repr

/-- The three outcomes of a step of this machine. -/
abbrev Result := Host.Outcome State Fault Refusal

end Sys2Proof.Machine
end

