-- ==== Sys2Proof/Machine/Ops.lean ====
section
/-! DEFINITION. The named operations over the state: memory (spec/20_memory.md), registers, the
call stack, the framebuffer, the parts of a cycle every instruction shares (R70), raising a fault
(R143), and the operations of the surroundings: reset, load, tick (R160, R164, R150). -/

namespace Sys2Proof.Machine

/-! ### Memory -/

/-- The canonical form of memory: addresses strictly rising and inside the 4096 cells, and no entry
equal to what an unlisted address reads as. -/
abbrev Memory.wf (m : Memory) : Prop :=
  m.Pairwise (fun c d => c.1 < d.1) ∧ ∀ c ∈ m, c.1 < Config.memSize ∧ c.2 ≠ 0

/-- Read one byte.  An unlisted address reads as 0: every cell is 0 after reset (R26, R36). -/
def memRead : Memory → Nat → Byte
  | [], _ => 0
  | (k, b) :: rest, a => if k = a then b else memRead rest a

/-- Insert an entry at its place in the order of addresses. -/
def memInsert (a : Nat) (b : Byte) : Memory → Memory
  | [] => [(a, b)]
  | c :: rest => if a < c.1 then (a, b) :: c :: rest else c :: memInsert a b rest

/-- Write one byte, keeping the canonical form (R36). -/
def memWrite (m : Memory) (a : Nat) (b : Byte) : Memory :=
  let others := m.filter (fun c => c.1 ≠ a)
  if b = 0 then others else memInsert a b others

/-- Write bytes from an address up, in increasing address order (R31, R43). -/
def memWriteBytes : Memory → Nat → List Byte → Memory
  | m, _, [] => m
  | m, a, b :: rest => memWriteBytes (memWrite m a b) (a + 1) rest

/-- Read `n` bytes from an address up. -/
def memReadBytes (m : Memory) (a n : Nat) : List Byte := (List.range n).map (fun k => memRead m (a + k))

/-- The bounds check of an access to `count` bytes from `base` up: the lowest address above 0xFFF it
would touch, if there is one.  Addresses are unbounded sums (R33, R34). -/
def firstBadAddr (base count : Nat) : Option Nat :=
  if 0 < count ∧ Config.memSize < base + count then some (max base Config.memSize) else none

/-! ### Registers -/

/-- `V[r]` (R10). -/
def State.readV (s : State) (r : Reg) : Byte := s.v[r]
/-- `V[r] <- b` (R10). -/
def State.setV (s : State) (r : Reg) (b : Byte) : State := { s with v := s.v.set r b }
/-- The whole register file. -/
def State.setRegs (s : State) (v : Vector Byte 16) : State := { s with v := v }
/-- `I <- w` (R12). -/
def State.setI (s : State) (w : Word) : State := { s with i := w }
/-- `pc <- w` (R13). -/
def State.setPc (s : State) (w : Word) : State := { s with pc := w }
/-- The call stack (R16). -/
def State.setStack (s : State) (l : List Word) : State := { s with stack := l }
/-- The memory (R17). -/
def State.setMem (s : State) (m : Memory) : State := { s with mem := m }
/-- The framebuffer (R18). -/
def State.setFb (s : State) (fb : Framebuffer) : State := { s with fb := fb }
/-- `DT <- b` (R19). -/
def State.setDt (s : State) (b : Byte) : State := { s with dt := b }
/-- `ST <- b` (R19). -/
def State.setSt (s : State) (b : Byte) : State := { s with st := b }
/-- `DIRTY <- b` (R20). -/
def State.setDirty (s : State) (b : Bool) : State := { s with dirty := b }
/-- `UNK <- 1 ; UNK_WORD <- w` (R21, R74). -/
def State.reportUnknown (s : State) (w : Word) : State := { s with unk := true, unkWord := w }
/-- The answer to a load (R164). -/
def State.setLoadReply (s : State) (r : LoadReply) : State := { s with loadReply := some r }

/-! ### The call stack (R16) -/

/-- The stack holds STACK_DEPTH entries; an unbounded stack is never full (R16). -/
def State.stackFull (s : State) : Bool :=
  match s.params.stackDepth with
  | none => false
  | some d => decide (d ≤ s.stack.length)

/-- `push(v)`, where the stack is not full. -/
def State.push (s : State) (w : Word) : State := s.setStack (s.stack ++ [w])

/-- `pop()`, where the stack is not empty: the state without the newest entry. -/
def State.dropTop (s : State) : State := s.setStack s.stack.dropLast

/-! ### The framebuffer (R18) -/

/-- `FB[x, y]`; there is no cell outside the grid, and none is ever read there. -/
def fbGet (fb : Framebuffer) (x y : Nat) : Bool :=
  if h : x < 64 ∧ y < 32 then (fb[y]'h.2)[x]'h.1 else false

/-- `FB[x, y] <- b`. -/
def fbSet (fb : Framebuffer) (x y : Nat) (b : Bool) : Framebuffer :=
  if h : x < 64 ∧ y < 32 then fb.set y ((fb[y]'h.2).set x b h.1) h.2 else fb

/-! ### The parts of a cycle -/

/-- What every cycle does before it executes: PHASE <- RUNNING, DIRTY <- 0, UNK <- 0 and the advance
of PC by 2, modulo 65536 (R70, R14). -/
def State.beginCycle (s : State) : State :=
  { s with phase := .running, dirty := false, unk := false, pc := s.pc + 2 }

/-- Write the fault record: cause, address of the faulting instruction, info (R143). -/
def State.recordFault (s : State) (c : FaultCause) (info : BitVec 17) : State :=
  { s with fault := c, faultPc := s.pc, faultInfo := info }

/-- TAKING A FAULT (R73, R143).  `s` is the state the cycle began in, whose PC is the address of the
faulting instruction: nothing the cycle wrote is kept, the record is written, and the core is now
halted.  There is no handler and no vector, nothing is pushed, and control goes nowhere. -/
def raise (c : FaultCause) (info : BitVec 17) (s : State) : Result := .next (s.recordFault c info)

/-- An instruction that accesses `count` bytes from I up: MemOutOfRange, with the lowest offending
address, or the state `ok` it leaves (R33, R142). -/
def accessAtI (count : Nat) (s ok : State) : Result :=
  match firstBadAddr s.i.toNat count with
  | some a => raise .memOutOfRange (BitVec.ofNat 17 a) s
  | none => .next ok

/-- A skip: past one more instruction when the condition holds (R80). -/
def skipIf (c : Bool) (s : State) : State :=
  if c then s.beginCycle.setPc (s.beginCycle.pc + 2) else s.beginCycle

/-- The 3-bit code of FAULT (R24, R140). -/
def FaultCause.code : FaultCause → BitVec 3
  | .none => 0
  | .stackUnderflow => 1
  | .stackOverflow => 2
  | .fetchOutOfRange => 3
  | .memOutOfRange => 4

/-! ### The operations of the surroundings (R166)

There is no return from a fault: the one way out of the halted state is the reset (R146). -/

/-- The reset operation, enabled in every state (R160).  Everything the spec gives the core is
re-initialised; what is not the core's stays: the actions still pending, the parameters, and the
count of free values, which must not be drawn twice. -/
def resetCore (s : State) : State :=
  { State.reset with draws := s.draws, pending := s.pending, params := s.params }

/-- The load operation (R164): enabled in LOADING while the core is not halted; refused whole when
it does not fit; it touches the loaded cells and nothing else. -/
def loadBytes (base : Nat) (bytes : List Byte) (s : State) : State :=
  if s.fault ≠ .none ∨ s.phase = .running then s.setLoadReply .notEnabled
  else if Config.memSize < base + bytes.length then s.setLoadReply .loadError
  else (s.setMem (memWriteBytes s.mem base bytes)).setLoadReply .accepted

/-- A timer one tick later: saturates at zero (R150). -/
def timerDown (b : Byte) : Byte := if b = 0 then 0 else b - 1

/-- The tick operation (R150), not accepted by a halted core (R144). -/
def tick (s : State) : State :=
  if s.fault ≠ .none then s else (s.setDt (timerDown s.dt)).setSt (timerDown s.st)

/-! ### What the surroundings may read (R76, R166) -/

/-- The per-cycle trace: PC, I and the registers (R76). -/
structure Trace where
  pc : Word
  i : Word
  v : Vector Byte 16
  deriving DecidableEq, Repr

/-- The trace of a state; reading it changes nothing (R76). -/
def readTrace (s : State) : Trace := ⟨s.pc, s.i, s.v⟩

/-- What the renderer receives after a cycle: the framebuffer exactly when DIRTY is set (R20). -/
def frameToRender (s : State) : Option Framebuffer := if s.dirty then some s.fb else none

end Sys2Proof.Machine
end

