-- ==== Sys2Proof/Machine/Flags.lean ====
section
/-! DEFINITION. Every flag computation of the machine, and the order of the two writes of an
instruction that writes a result and a flag (R11, R15, R91). -/

namespace Sys2Proof.Machine

/-- A flag is written to VF as the full byte 0x00 or 0x01 (R11). -/
def flagByte (b : Bool) : Byte := if b then 1 else 0

/-- Carry out of an 8-bit addition: the sum without wrap exceeds 255 (R98). -/
def carryOut (a b : Byte) : Bool := decide (255 < a.toNat + b.toNat)

/-- Not-borrow of `a - b`: false exactly when the minuend is less than the subtrahend (R99, R101). -/
def notBorrow (a b : Byte) : Bool := !decide (a.toNat < b.toNat)

/-- The bit SHR shifts out (R100). -/
def lowBit (a : Byte) : Bool := a.getLsbD 0

/-- The bit SHL shifts out (R102). -/
def highBit (a : Byte) : Bool := a.getLsbD 7

/-- ADD_REG, SUB, SUBN: the result to V[x] first, the flag to VF last; with x = F the flag stays
(R91). -/
def resultThenFlag (x : Reg) (result : Byte) (flag : Bool) (s : State) : State :=
  (s.setV x result).setV .vf (flagByte flag)

/-- SHR, SHL: the flag to VF first, the result to V[x] last; with x = F the result stays (R91). -/
def flagThenResult (x : Reg) (result : Byte) (flag : Bool) (s : State) : State :=
  (s.setV .vf (flagByte flag)).setV x result

end Sys2Proof.Machine
end

