-- ==== Sys2Proof/Syntax.lean ====
section
/-! DEFINITION. The 34 instructions, one constructor per row of the opcode map (R54), in its
order.  The 35th outcome of decoding, UNKNOWN, is no row of the map: it is a result of the decoder
(`Decoded.unknown`, R53) and has its meaning in `Machine.execUnknown` (R74). -/

namespace Sys2Proof

/-- One instruction with its operands.  Every value of every operand is legal (R57). -/
inductive Instr where
  /-- 00E0 CLS -/
  | cls
  /-- 00EE RET -/
  | ret
  /-- 1nnn JP -/
  | jp (nnn : Addr12)
  /-- 2nnn CALL -/
  | call (nnn : Addr12)
  /-- 3xkk SE_IMM -/
  | seImm (x : Reg) (kk : Byte)
  /-- 4xkk SNE_IMM -/
  | sneImm (x : Reg) (kk : Byte)
  /-- 5xy0 SE_REG -/
  | seReg (x y : Reg)
  /-- 6xkk LD_IMM -/
  | ldImm (x : Reg) (kk : Byte)
  /-- 7xkk ADD_IMM -/
  | addImm (x : Reg) (kk : Byte)
  /-- 8xy0 LD_REG -/
  | ldReg (x y : Reg)
  /-- 8xy1 OR -/
  | orReg (x y : Reg)
  /-- 8xy2 AND -/
  | andReg (x y : Reg)
  /-- 8xy3 XOR -/
  | xorReg (x y : Reg)
  /-- 8xy4 ADD_REG -/
  | addReg (x y : Reg)
  /-- 8xy5 SUB -/
  | sub (x y : Reg)
  /-- 8xy6 SHR: y is decoded and ignored -/
  | shr (x y : Reg)
  /-- 8xy7 SUBN -/
  | subn (x y : Reg)
  /-- 8xyE SHL: y is decoded and ignored -/
  | shl (x y : Reg)
  /-- 9xy0 SNE_REG -/
  | sneReg (x y : Reg)
  /-- Annn LD_I -/
  | ldI (nnn : Addr12)
  /-- Bnnn JP_V0 -/
  | jpV0 (nnn : Addr12)
  /-- Cxkk RND -/
  | rnd (x : Reg) (kk : Byte)
  /-- Dxyn DRW -/
  | drw (x y : Reg) (n : RowCount)
  /-- Ex9E SKP -/
  | skp (x : Reg)
  /-- ExA1 SKNP -/
  | sknp (x : Reg)
  /-- Fx07 LD_VX_DT -/
  | ldVxDt (x : Reg)
  /-- Fx0A LD_VX_K -/
  | ldVxK (x : Reg)
  /-- Fx15 LD_DT_VX -/
  | ldDtVx (x : Reg)
  /-- Fx18 LD_ST_VX -/
  | ldStVx (x : Reg)
  /-- Fx1E ADD_I -/
  | addI (x : Reg)
  /-- Fx29 LD_F -/
  | ldF (x : Reg)
  /-- Fx33 LD_B -/
  | ldB (x : Reg)
  /-- Fx55 ST_REGS -/
  | stRegs (x : Reg)
  /-- Fx65 LD_REGS -/
  | ldRegs (x : Reg)
  deriving DecidableEq, Repr

end Sys2Proof
end

