-- ==== Sys2Proof/WellFormed.lean ====
section
/-! DEFINITION. Well-formedness.  "No field value is reserved inside a defined instruction" (R57):
an operand's type holds exactly the values its field has, so every term of `Instr` is well formed.
What can be ill formed is a NUMBER offered as an operand: the four checks below are the ways a
number becomes an operand, and each refuses a number its field cannot hold (R51, R52). -/

namespace Sys2Proof

/-- A register operand x or y: 0 to 15 (R51). -/
def Reg.check (n : Nat) : Option Reg := if h : n < 16 then some ⟨n, h⟩ else none

/-- The row count n of DRW: 0 to 15 (R52). -/
def RowCount.check (n : Nat) : Option RowCount := if h : n < 16 then some ⟨n, h⟩ else none

/-- The immediate kk: 0 to 255 (R52). -/
def Byte.check (n : Nat) : Option Byte := if n < 256 then some (BitVec.ofNat 8 n) else none

/-- The address operand nnn: 0 to 0xFFF (R52). -/
def Addr12.check (n : Nat) : Option Addr12 := if n < 4096 then some (BitVec.ofNat 12 n) else none

/-- Every instruction is well formed (R57): there is no reserved operand value, VF is a legal x and
y everywhere, DRW with n = 0 is legal, and odd and low addresses are legal targets. -/
def Instr.wellFormed : Instr → Bool
  | .cls | .ret => true
  | .jp _ | .call _ | .ldI _ | .jpV0 _ => true
  | .seImm _ _ | .sneImm _ _ | .ldImm _ _ | .addImm _ _ | .rnd _ _ => true
  | .seReg _ _ | .sneReg _ _ | .ldReg _ _ | .orReg _ _ | .andReg _ _ | .xorReg _ _ => true
  | .addReg _ _ | .sub _ _ | .shr _ _ | .subn _ _ | .shl _ _ => true
  | .drw _ _ _ => true
  | .skp _ | .sknp _ | .ldVxDt _ | .ldVxK _ | .ldDtVx _ | .ldStVx _ => true
  | .addI _ | .ldF _ | .ldB _ | .stRegs _ | .ldRegs _ => true

end Sys2Proof
end

