-- ==== Sys2Proof/Decode.lean ====
section
/-! DEFINITION. The decoder and the encoder (spec/30_encoding.md).  `decode` is total on words: the
34 instructions and UNKNOWN, which is named and keeps its word (R53, R56).  `decodeBytes` is total
on byte lists; the first byte is the high half (R31, R50). -/

namespace Sys2Proof

/-- What the decoder answers: an instruction, or the UNKNOWN variant with the raw word (R53). -/
inductive Decoded where
  | instr (i : Instr)
  | unknown (w : Word)
  deriving DecidableEq, Repr

/-- What the decoder answers on a byte list: a decoded word and the bytes after it, or, when there
are fewer than the two bytes every instruction has (R50), the rejection `tooShort`. -/
inductive ByteDecode where
  | decoded (d : Decoded) (rest : List Byte)
  | tooShort (bytes : List Byte)
  deriving DecidableEq, Repr

/-! ### The fields of a word (R51) -/

/-- `op`, bits 15:12. -/
def fieldOp (w : Word) : BitVec 4 := w.extractLsb' 12 4
/-- `x`, bits 11:8. -/
def fieldX (w : Word) : Reg := ⟨(w.extractLsb' 8 4).toNat, (w.extractLsb' 8 4).isLt⟩
/-- `y`, bits 7:4. -/
def fieldY (w : Word) : Reg := ⟨(w.extractLsb' 4 4).toNat, (w.extractLsb' 4 4).isLt⟩
/-- `n`, bits 3:0, as a sub-opcode. -/
def fieldN (w : Word) : BitVec 4 := w.extractLsb' 0 4
/-- `n`, bits 3:0, as DRW's row count. -/
def fieldRows (w : Word) : RowCount := ⟨(fieldN w).toNat, (fieldN w).isLt⟩
/-- `kk`, bits 7:0. -/
def fieldKK (w : Word) : Byte := w.extractLsb' 0 8
/-- `nnn`, bits 11:0. -/
def fieldNNN (w : Word) : Addr12 := w.extractLsb' 0 12

/-! ### Decoding (R53, R54) -/

/-- Family 0x0 compares the whole word. -/
def decodeFamily0 (w : Word) : Decoded :=
  if w = 0x00E0 then .instr .cls
  else if w = 0x00EE then .instr .ret
  else .unknown w

/-- Family 0x8 compares n. -/
def decodeFamily8 (w : Word) : Decoded :=
  match (fieldN w).toNat with
  | 0x0 => .instr (.ldReg (fieldX w) (fieldY w))
  | 0x1 => .instr (.orReg (fieldX w) (fieldY w))
  | 0x2 => .instr (.andReg (fieldX w) (fieldY w))
  | 0x3 => .instr (.xorReg (fieldX w) (fieldY w))
  | 0x4 => .instr (.addReg (fieldX w) (fieldY w))
  | 0x5 => .instr (.sub (fieldX w) (fieldY w))
  | 0x6 => .instr (.shr (fieldX w) (fieldY w))
  | 0x7 => .instr (.subn (fieldX w) (fieldY w))
  | 0xE => .instr (.shl (fieldX w) (fieldY w))
  | _ => .unknown w

/-- Family 0xE compares kk. -/
def decodeFamilyE (w : Word) : Decoded :=
  if fieldKK w = 0x9E then .instr (.skp (fieldX w))
  else if fieldKK w = 0xA1 then .instr (.sknp (fieldX w))
  else .unknown w

/-- Family 0xF compares kk. -/
def decodeFamilyF (w : Word) : Decoded :=
  if fieldKK w = 0x07 then .instr (.ldVxDt (fieldX w))
  else if fieldKK w = 0x0A then .instr (.ldVxK (fieldX w))
  else if fieldKK w = 0x15 then .instr (.ldDtVx (fieldX w))
  else if fieldKK w = 0x18 then .instr (.ldStVx (fieldX w))
  else if fieldKK w = 0x1E then .instr (.addI (fieldX w))
  else if fieldKK w = 0x29 then .instr (.ldF (fieldX w))
  else if fieldKK w = 0x33 then .instr (.ldB (fieldX w))
  else if fieldKK w = 0x55 then .instr (.stRegs (fieldX w))
  else if fieldKK w = 0x65 then .instr (.ldRegs (fieldX w))
  else .unknown w

/-- The decoder: select on `op`, then as the family says (R53, R54).  It looks at the word only
(R50, R71). -/
def decode (w : Word) : Decoded :=
  match (fieldOp w).toNat with
  | 0x0 => decodeFamily0 w
  | 0x1 => .instr (.jp (fieldNNN w))
  | 0x2 => .instr (.call (fieldNNN w))
  | 0x3 => .instr (.seImm (fieldX w) (fieldKK w))
  | 0x4 => .instr (.sneImm (fieldX w) (fieldKK w))
  | 0x5 => if fieldN w = 0 then .instr (.seReg (fieldX w) (fieldY w)) else .unknown w
  | 0x6 => .instr (.ldImm (fieldX w) (fieldKK w))
  | 0x7 => .instr (.addImm (fieldX w) (fieldKK w))
  | 0x8 => decodeFamily8 w
  | 0x9 => if fieldN w = 0 then .instr (.sneReg (fieldX w) (fieldY w)) else .unknown w
  | 0xA => .instr (.ldI (fieldNNN w))
  | 0xB => .instr (.jpV0 (fieldNNN w))
  | 0xC => .instr (.rnd (fieldX w) (fieldKK w))
  | 0xD => .instr (.drw (fieldX w) (fieldY w) (fieldRows w))
  | 0xE => decodeFamilyE w
  | _ => decodeFamilyF w

/-- Two bytes in memory order as a word, high byte first (R31). -/
def wordOfBytes (hi lo : Byte) : Word := hi ++ lo

/-- Decoding the bytes of memory: two bytes make a word, the rest is left over (R31, R50). -/
def decodeBytes : List Byte → ByteDecode
  | hi :: lo :: rest => .decoded (decode (wordOfBytes hi lo)) rest
  | [b] => .tooShort [b]
  | [] => .tooShort []

/-! ### Encoding (the five formats of spec/30_encoding.md section 2) -/

/-- A register index as its 4-bit field. -/
def regBits (x : Reg) : BitVec 4 := BitVec.ofNat 4 x.val

/-- Format A: op, nnn. -/
def formatA (op : BitVec 4) (nnn : Addr12) : Word := op ++ nnn
/-- Format XK: op, x, kk. -/
def formatXK (op : BitVec 4) (x : Reg) (kk : Byte) : Word := op ++ (regBits x ++ kk)
/-- Format XY: op, x, y, n. -/
def formatXY (op : BitVec 4) (x y : Reg) (n : BitVec 4) : Word := op ++ (regBits x ++ (regBits y ++ n))
/-- Format X: op, x, the 8-bit sub-opcode. -/
def formatX (op : BitVec 4) (x : Reg) (kk : Byte) : Word := op ++ (regBits x ++ kk)

/-- The word of an instruction, row by row of the opcode map (R54). -/
def encode : Instr → Word
  | .cls => 0x00E0
  | .ret => 0x00EE
  | .jp nnn => formatA 0x1 nnn
  | .call nnn => formatA 0x2 nnn
  | .seImm x kk => formatXK 0x3 x kk
  | .sneImm x kk => formatXK 0x4 x kk
  | .seReg x y => formatXY 0x5 x y 0x0
  | .ldImm x kk => formatXK 0x6 x kk
  | .addImm x kk => formatXK 0x7 x kk
  | .ldReg x y => formatXY 0x8 x y 0x0
  | .orReg x y => formatXY 0x8 x y 0x1
  | .andReg x y => formatXY 0x8 x y 0x2
  | .xorReg x y => formatXY 0x8 x y 0x3
  | .addReg x y => formatXY 0x8 x y 0x4
  | .sub x y => formatXY 0x8 x y 0x5
  | .shr x y => formatXY 0x8 x y 0x6
  | .subn x y => formatXY 0x8 x y 0x7
  | .shl x y => formatXY 0x8 x y 0xE
  | .sneReg x y => formatXY 0x9 x y 0x0
  | .ldI nnn => formatA 0xA nnn
  | .jpV0 nnn => formatA 0xB nnn
  | .rnd x kk => formatXK 0xC x kk
  | .drw x y n => formatXY 0xD x y (BitVec.ofNat 4 n.val)
  | .skp x => formatX 0xE x 0x9E
  | .sknp x => formatX 0xE x 0xA1
  | .ldVxDt x => formatX 0xF x 0x07
  | .ldVxK x => formatX 0xF x 0x0A
  | .ldDtVx x => formatX 0xF x 0x15
  | .ldStVx x => formatX 0xF x 0x18
  | .addI x => formatX 0xF x 0x1E
  | .ldF x => formatX 0xF x 0x29
  | .ldB x => formatX 0xF x 0x33
  | .stRegs x => formatX 0xF x 0x55
  | .ldRegs x => formatX 0xF x 0x65

/-- The bytes of a word in memory order, high byte first (R31). -/
def bytesOfWord (w : Word) : List Byte := [w.extractLsb' 8 8, w.extractLsb' 0 8]

/-! ### The opcode map as a table of masks and matches (R53, R54) -/

/-- The (mask, match) pair of an instruction's row. -/
def opcodeRow : Instr → Word × Word
  | .cls => (0xFFFF, 0x00E0)
  | .ret => (0xFFFF, 0x00EE)
  | .jp _ => (0xF000, 0x1000)
  | .call _ => (0xF000, 0x2000)
  | .seImm _ _ => (0xF000, 0x3000)
  | .sneImm _ _ => (0xF000, 0x4000)
  | .seReg _ _ => (0xF00F, 0x5000)
  | .ldImm _ _ => (0xF000, 0x6000)
  | .addImm _ _ => (0xF000, 0x7000)
  | .ldReg _ _ => (0xF00F, 0x8000)
  | .orReg _ _ => (0xF00F, 0x8001)
  | .andReg _ _ => (0xF00F, 0x8002)
  | .xorReg _ _ => (0xF00F, 0x8003)
  | .addReg _ _ => (0xF00F, 0x8004)
  | .sub _ _ => (0xF00F, 0x8005)
  | .shr _ _ => (0xF00F, 0x8006)
  | .subn _ _ => (0xF00F, 0x8007)
  | .shl _ _ => (0xF00F, 0x800E)
  | .sneReg _ _ => (0xF00F, 0x9000)
  | .ldI _ => (0xF000, 0xA000)
  | .jpV0 _ => (0xF000, 0xB000)
  | .rnd _ _ => (0xF000, 0xC000)
  | .drw _ _ _ => (0xF000, 0xD000)
  | .skp _ => (0xF0FF, 0xE09E)
  | .sknp _ => (0xF0FF, 0xE0A1)
  | .ldVxDt _ => (0xF0FF, 0xF007)
  | .ldVxK _ => (0xF0FF, 0xF00A)
  | .ldDtVx _ => (0xF0FF, 0xF015)
  | .ldStVx _ => (0xF0FF, 0xF018)
  | .addI _ => (0xF0FF, 0xF01E)
  | .ldF _ => (0xF0FF, 0xF029)
  | .ldB _ => (0xF0FF, 0xF033)
  | .stRegs _ => (0xF0FF, 0xF055)
  | .ldRegs _ => (0xF0FF, 0xF065)

/-! ### Names and spelling (R58) -/

/-- The spec's name of an instruction, its row's mnemonic (R58). -/
def mnemonicOf : Instr → String
  | .cls => "CLS"
  | .ret => "RET"
  | .jp _ => "JP"
  | .call _ => "CALL"
  | .seImm _ _ => "SE_IMM"
  | .sneImm _ _ => "SNE_IMM"
  | .seReg _ _ => "SE_REG"
  | .ldImm _ _ => "LD_IMM"
  | .addImm _ _ => "ADD_IMM"
  | .ldReg _ _ => "LD_REG"
  | .orReg _ _ => "OR"
  | .andReg _ _ => "AND"
  | .xorReg _ _ => "XOR"
  | .addReg _ _ => "ADD_REG"
  | .sub _ _ => "SUB"
  | .shr _ _ => "SHR"
  | .subn _ _ => "SUBN"
  | .shl _ _ => "SHL"
  | .sneReg _ _ => "SNE_REG"
  | .ldI _ => "LD_I"
  | .jpV0 _ => "JP_V0"
  | .rnd _ _ => "RND"
  | .drw _ _ _ => "DRW"
  | .skp _ => "SKP"
  | .sknp _ => "SKNP"
  | .ldVxDt _ => "LD_VX_DT"
  | .ldVxK _ => "LD_VX_K"
  | .ldDtVx _ => "LD_DT_VX"
  | .ldStVx _ => "LD_ST_VX"
  | .addI _ => "ADD_I"
  | .ldF _ => "LD_F"
  | .ldB _ => "LD_B"
  | .stRegs _ => "ST_REGS"
  | .ldRegs _ => "LD_REGS"

/-- A number in hexadecimal, with at least `width` digits. -/
def hexText (width n : Nat) : String :=
  String.ofList (List.replicate (width - (Nat.toDigits 16 n).length) '0' ++
    (Nat.toDigits 16 n).map Char.toUpper)

/-- A register operand, V0 to VF. -/
def regText (x : Reg) : String := "V" ++ hexText 1 x.val
/-- An immediate kk. -/
def byteText (kk : Byte) : String := hexText 2 kk.toNat
/-- An address nnn. -/
def addrText (nnn : Addr12) : String := hexText 3 nnn.toNat

/-- The conventional assembler spelling of an instruction, numbers in hexadecimal as the listings of
spec/95_test_vectors.md write them (R58, D30; the y of SHR and SHL is not written).  PRESUMED by the
spec (log 16). -/
def spelling : Instr → String
  | .cls => "CLS"
  | .ret => "RET"
  | .jp nnn => "JP " ++ addrText nnn
  | .call nnn => "CALL " ++ addrText nnn
  | .seImm x kk => "SE " ++ regText x ++ ", " ++ byteText kk
  | .sneImm x kk => "SNE " ++ regText x ++ ", " ++ byteText kk
  | .seReg x y => "SE " ++ regText x ++ ", " ++ regText y
  | .ldImm x kk => "LD " ++ regText x ++ ", " ++ byteText kk
  | .addImm x kk => "ADD " ++ regText x ++ ", " ++ byteText kk
  | .ldReg x y => "LD " ++ regText x ++ ", " ++ regText y
  | .orReg x y => "OR " ++ regText x ++ ", " ++ regText y
  | .andReg x y => "AND " ++ regText x ++ ", " ++ regText y
  | .xorReg x y => "XOR " ++ regText x ++ ", " ++ regText y
  | .addReg x y => "ADD " ++ regText x ++ ", " ++ regText y
  | .sub x y => "SUB " ++ regText x ++ ", " ++ regText y
  | .shr x _ => "SHR " ++ regText x
  | .subn x y => "SUBN " ++ regText x ++ ", " ++ regText y
  | .shl x _ => "SHL " ++ regText x
  | .sneReg x y => "SNE " ++ regText x ++ ", " ++ regText y
  | .ldI nnn => "LD I, " ++ addrText nnn
  | .jpV0 nnn => "JP V0, " ++ addrText nnn
  | .rnd x kk => "RND " ++ regText x ++ ", " ++ byteText kk
  | .drw x y n => "DRW " ++ regText x ++ ", " ++ regText y ++ ", " ++ hexText 1 n.val
  | .skp x => "SKP " ++ regText x
  | .sknp x => "SKNP " ++ regText x
  | .ldVxDt x => "LD " ++ regText x ++ ", DT"
  | .ldVxK x => "LD " ++ regText x ++ ", K"
  | .ldDtVx x => "LD DT, " ++ regText x
  | .ldStVx x => "LD ST, " ++ regText x
  | .addI x => "ADD I, " ++ regText x
  | .ldF x => "LD F, " ++ regText x
  | .ldB x => "LD B, " ++ regText x
  | .stRegs x => "LD [I], " ++ regText x
  | .ldRegs x => "LD " ++ regText x ++ ", [I]"

/-! ### The table's own numbering of bits -/

/-- The bytes in memory of the instruction whose bits are `w`, numbered as the opcode table numbers
them (bit 0 is the least significant bit of the one word); bits from `nbits` up are zero. -/
def tableBytes (nbits w : Nat) : List Byte := bytesOfWord (BitVec.ofNat 16 (w % 2 ^ nbits))

/-- The instruction the decoder reads from those bytes; `none` where it answers UNKNOWN. -/
def decodeTableWord (nbits w : Nat) : Option Instr :=
  match decodeBytes (tableBytes nbits w) with
  | .decoded (.instr i) _ => some i
  | .decoded (.unknown _) _ => none
  | .tooShort _ => none

end Sys2Proof
end

