-- ==== Sys2Proof/Machine/Operands.lean ====
section
/-! DEFINITION. The operand forms: how an instruction's fields become values (R52), the implicit
operands I + k (R110) and KEYS (R130), and the values the stores write. -/

namespace Sys2Proof.Machine

/-- An address operand at register width: `zext_16(nnn)` (R52). -/
def zext16 (nnn : Addr12) : Word := nnn.setWidth 16

/-- A byte at the width of I and PC: `zext_16(v)` (R88, R112). -/
def zextByte (b : Byte) : Word := b.setWidth 16

/-- A word as FAULT_INFO holds it (R24). -/
def wordInfo (w : Word) : BitVec 17 := w.setWidth 17

/-- `pressed(v)`: v names a key, 0 to 0xF, and that key's bit of KEYS is 1; the whole value is
compared, not its low nibble (R130). -/
def pressed (keys : BitVec 16) (v : Byte) : Bool := decide (v.toNat ≤ 0xF) && keys.getLsbD v.toNat

/-- The three decimal digits LD_B stores: hundreds, tens, ones (R114). -/
def bcdDigits (v : Byte) : List Byte :=
  [BitVec.ofNat 8 (v.toNat / 100), BitVec.ofNat 8 (v.toNat / 10 % 10), BitVec.ofNat 8 (v.toNat % 10)]

/-- The bytes ST_REGS stores: V[0] to V[x] inclusive (R115). -/
def regsUpTo (s : State) (x : Reg) : List Byte := s.v.toList.take (x.val + 1)

/-- The register file after LD_REGS: V[k] from MEM[I + k] for k = 0 to x, the others as they were
(R116). -/
def regsLoaded (s : State) (x : Reg) : Vector Byte 16 :=
  Vector.ofFn fun k => if k.val ≤ x.val then memRead s.mem (s.i.toNat + k.val) else s.v[k]

/-- The glyph address LD_F computes: FONT_BASE + FONT_STRIDE × v, with the whole byte v (R113). -/
def glyphAddr (p : Config.Params) (v : Byte) : Word :=
  BitVec.ofNat 16 (Config.fontBase + p.fontStride * v.toNat)

end Sys2Proof.Machine
end

