-- ==== Sys2Proof/Machine/Alu.lean ====
section
/-! DEFINITION. Register loads and arithmetic/logic (spec/42_alu.md).  Operands are sampled from the
state the cycle begins in, before either write (R72, R91). -/

namespace Sys2Proof.Machine

/-- LD_IMM (R92). -/
def execLdImm (x : Reg) (kk : Byte) (s : State) : Result := .next (s.beginCycle.setV x kk)

/-- ADD_IMM (R93): the sum modulo 256, no flag. -/
def execAddImm (x : Reg) (kk : Byte) (s : State) : Result :=
  .next (s.beginCycle.setV x (s.readV x + kk))

/-- LD_REG (R94). -/
def execLdReg (x y : Reg) (s : State) : Result := .next (s.beginCycle.setV x (s.readV y))

/-- OR (R95): no flag. -/
def execOrReg (x y : Reg) (s : State) : Result :=
  .next (s.beginCycle.setV x (s.readV x ||| s.readV y))

/-- AND (R96): no flag. -/
def execAndReg (x y : Reg) (s : State) : Result :=
  .next (s.beginCycle.setV x (s.readV x &&& s.readV y))

/-- XOR (R97): no flag. -/
def execXorReg (x y : Reg) (s : State) : Result :=
  .next (s.beginCycle.setV x (s.readV x ^^^ s.readV y))

/-- ADD_REG (R98): the sum modulo 256, the carry to VF last. -/
def execAddReg (x y : Reg) (s : State) : Result :=
  .next (resultThenFlag x (s.readV x + s.readV y) (carryOut (s.readV x) (s.readV y)) s.beginCycle)

/-- SUB (R99): V[x] − V[y] modulo 256, not-borrow to VF last. -/
def execSub (x y : Reg) (s : State) : Result :=
  .next (resultThenFlag x (s.readV x - s.readV y) (notBorrow (s.readV x) (s.readV y)) s.beginCycle)

/-- SHR (R100): V[x] in place, y ignored, the bit shifted out to VF first. -/
def execShr (x _y : Reg) (s : State) : Result :=
  .next (flagThenResult x (s.readV x >>> 1) (lowBit (s.readV x)) s.beginCycle)

/-- SUBN (R101): V[y] − V[x] modulo 256 into V[x], not-borrow to VF last. -/
def execSubn (x y : Reg) (s : State) : Result :=
  .next (resultThenFlag x (s.readV y - s.readV x) (notBorrow (s.readV y) (s.readV x)) s.beginCycle)

/-- SHL (R102): V[x] in place, y ignored, the bit shifted out to VF first. -/
def execShl (x _y : Reg) (s : State) : Result :=
  .next (flagThenResult x (s.readV x <<< 1) (highBit (s.readV x)) s.beginCycle)

end Sys2Proof.Machine
end

