-- ==== Sys2Proof/Machine/Display.lean ====
section
/-! DEFINITION. Display (spec/44_display.md): CLS and DRW.  The draw is the loop of R122, row by row
and column by column. -/

namespace Sys2Proof.Machine

/-- What a draw carries from pixel to pixel: the framebuffer, whether a set cell was turned off, and
whether any cell was toggled (R122). -/
structure Drawing where
  fb : Framebuffer
  collided : Bool
  changed : Bool
  deriving DecidableEq, Repr

/-- Toggle one cell; turning a set cell off is a collision (R122). -/
def toggleCell (d : Drawing) (x y : Nat) : Drawing where
  fb := fbSet d.fb x y (!fbGet d.fb x y)
  collided := d.collided || fbGet d.fb x y
  changed := true

/-- Column c of a sprite row: bit 7 - c of its byte, at column x0 + c; columns past 63 are clipped
(R122). -/
def drawColumn (b : Byte) (x0 y : Nat) (d : Drawing) (c : Nat) : Drawing :=
  if x0 + c ≤ 63 ∧ b.getLsbD (7 - c) = true then toggleCell d (x0 + c) y else d

/-- One sprite row: its eight columns from the left. -/
def drawRow (b : Byte) (x0 y : Nat) (d : Drawing) : Drawing :=
  (List.range 8).foldl (drawColumn b x0 y) d

/-- The rows of a sprite, one byte each from `base` up (R122). -/
def drawRows (m : Memory) (base x0 y0 rows : Nat) (d : Drawing) : Drawing :=
  (List.range rows).foldl (fun d r => drawRow (memRead m (base + r)) x0 (y0 + r) d) d

/-- The origin's column: V[x] modulo 64 (R122). -/
def spriteColumn (s : State) (x : Reg) : Nat := (s.readV x).toNat % 64

/-- The origin's row: V[y] modulo 32 (R122). -/
def spriteRow (s : State) (y : Reg) : Nat := (s.readV y).toNat % 32

/-- How many rows are drawn; those past row 31 are clipped and not read (R122). -/
def spriteRows (s : State) (y : Reg) (n : RowCount) : Nat := min n.val (32 - spriteRow s y)

/-- The drawing DRW makes. -/
def drawSprite (s : State) (x y : Reg) (n : RowCount) : Drawing :=
  drawRows s.mem s.i.toNat (spriteColumn s x) (spriteRow s y) (spriteRows s y n) ⟨s.fb, false, false⟩

/-- What a drawing leaves: the framebuffer, VF always, DIRTY when a cell was toggled (R122). -/
def showDrawing (d : Drawing) (s : State) : State :=
  ((s.setFb d.fb).setV .vf (flagByte d.collided)).setDirty d.changed

/-- CLS (R121): every cell to 0; DIRTY always. -/
def execCls (s : State) : Result := .next ((s.beginCycle.setFb blankFramebuffer).setDirty true)

/-- DRW (R122): the coordinates are those the instruction found, also where x or y is F. -/
def execDrw (x y : Reg) (n : RowCount) (s : State) : Result :=
  accessAtI (spriteRows s y n) s (showDrawing (drawSprite s x y n) s.beginCycle)

end Sys2Proof.Machine
end

