-- ==== Sys2Proof/Machine/Flow.lean ====
section
/-! DEFINITION. Control transfer (spec/41_flow.md): RET, JP, CALL, the four register skips, JP_V0.
A meaning takes the state its cycle begins in, whose PC is the address of the instruction. -/

namespace Sys2Proof.Machine

/-- RET (R81): pop the newest return address into PC, or StackUnderflow with the word 0x00EE. -/
def execRet (s : State) : Result :=
  match s.stack.getLast? with
  | none => raise .stackUnderflow (wordInfo (encode .ret)) s
  | some target => .next (s.beginCycle.dropTop.setPc target)

/-- JP (R82). -/
def execJp (nnn : Addr12) (s : State) : Result := .next (s.beginCycle.setPc (zext16 nnn))

/-- CALL (R83): push the advanced PC and jump, or StackOverflow with the CALL word. -/
def execCall (nnn : Addr12) (s : State) : Result :=
  if s.stackFull then raise .stackOverflow (wordInfo (encode (.call nnn))) s
  else .next ((s.beginCycle.push s.beginCycle.pc).setPc (zext16 nnn))

/-- SE_IMM (R84). -/
def execSeImm (x : Reg) (kk : Byte) (s : State) : Result := .next (skipIf (s.readV x == kk) s)

/-- SNE_IMM (R85). -/
def execSneImm (x : Reg) (kk : Byte) (s : State) : Result := .next (skipIf (s.readV x != kk) s)

/-- SE_REG (R86). -/
def execSeReg (x y : Reg) (s : State) : Result := .next (skipIf (s.readV x == s.readV y) s)

/-- SNE_REG (R87). -/
def execSneReg (x y : Reg) (s : State) : Result := .next (skipIf (s.readV x != s.readV y) s)

/-- JP_V0 (R88): the 16-bit sum of the operand and V[0], not reduced to 12 bits. -/
def execJpV0 (nnn : Addr12) (s : State) : Result :=
  .next (s.beginCycle.setPc (zext16 nnn + zextByte (s.readV .v0)))

end Sys2Proof.Machine
end

