-- ==== Sys2Proof/Machine/IndexMemory.lean ====
section
/-! DEFINITION. Index register and memory transfer (spec/43_index_memory.md).  Every data access is
at I + k, checked before the first write; I is never advanced by a transfer (R110). -/

namespace Sys2Proof.Machine

/-- LD_I (R111). -/
def execLdI (nnn : Addr12) (s : State) : Result := .next (s.beginCycle.setI (zext16 nnn))

/-- ADD_I (R112): modulo 65536, no flag. -/
def execAddI (x : Reg) (s : State) : Result :=
  .next (s.beginCycle.setI (s.i + zextByte (s.readV x)))

/-- LD_F (R113). -/
def execLdF (x : Reg) (s : State) : Result :=
  .next (s.beginCycle.setI (glyphAddr s.params (s.readV x)))

/-- LD_B (R114): three decimal digits at I, I + 1, I + 2. -/
def execLdB (x : Reg) (s : State) : Result :=
  accessAtI 3 s (s.beginCycle.setMem (memWriteBytes s.mem s.i.toNat (bcdDigits (s.readV x))))

/-- ST_REGS (R115): V[0] to V[x] at I up to I + x. -/
def execStRegs (x : Reg) (s : State) : Result :=
  accessAtI (x.val + 1) s (s.beginCycle.setMem (memWriteBytes s.mem s.i.toNat (regsUpTo s x)))

/-- LD_REGS (R116): V[0] to V[x] from I up to I + x. -/
def execLdRegs (x : Reg) (s : State) : Result :=
  accessAtI (x.val + 1) s (s.beginCycle.setRegs (regsLoaded s x))

end Sys2Proof.Machine
end

