-- ==== Sys2Proof/Machine/KeysTimersRandom.lean ====
section
/-! DEFINITION. The random byte, the keypad and the timers (spec/45_keys_timers_random.md). -/

namespace Sys2Proof.Machine

/-- RND (R131): the cycle's random byte AND kk. -/
def execRnd (x : Reg) (kk : Byte) (s : State) : Result := .next (s.beginCycle.setV x (s.rnd &&& kk))

/-- SKP (R132). -/
def execSkp (x : Reg) (s : State) : Result := .next (skipIf (pressed s.keys (s.readV x)) s)

/-- SKNP (R133). -/
def execSknp (x : Reg) (s : State) : Result := .next (skipIf (!pressed s.keys (s.readV x)) s)

/-- LD_VX_DT (R134). -/
def execLdVxDt (x : Reg) (s : State) : Result := .next (s.beginCycle.setV x s.dt)

/-- LD_VX_K (R135): while the key named by V[x] is up, PC goes back to this instruction; no register
is written. -/
def execLdVxK (x : Reg) (s : State) : Result :=
  .next (if pressed s.keys (s.readV x) then s.beginCycle
    else s.beginCycle.setPc (s.beginCycle.pc - 2))

/-- LD_DT_VX (R136). -/
def execLdDtVx (x : Reg) (s : State) : Result := .next (s.beginCycle.setDt (s.readV x))

/-- LD_ST_VX (R137). -/
def execLdStVx (x : Reg) (s : State) : Result := .next (s.beginCycle.setSt (s.readV x))

end Sys2Proof.Machine
end

