-- ==== Sys2Proof/Machine/Cycle.lean ====
section
/-! DEFINITION. The cycle (spec/40_cycle.md): fetch, decode, execute, the UNKNOWN variant; and the
action of the surroundings that the next step performs (R6, R38, R166). -/

namespace Sys2Proof.Machine

/-- The instruction word at PC: the byte at PC is its high half, the byte at PC + 1 its low half
(R31). -/
def fetchWord (s : State) : Word :=
  wordOfBytes (memRead s.mem s.pc.toNat) (memRead s.mem (s.pc.toNat + 1))

/-- UNKNOWN (R74): the report, and nothing else but what every cycle does. -/
def execUnknown (w : Word) (s : State) : Result := .next (s.beginCycle.reportUnknown w)

/-- Execute what the decoder answered (R53, R71). -/
def execDecoded (d : Decoded) (s : State) : Result :=
  match d with
  | .instr i => exec i s
  | .unknown w => execUnknown w s

/-- One cycle, with KEYS and RND latched (R70).  A halted core takes none (R75, R144); a fetch that
reaches above 0xFFF faults before anything else (R33, R142). -/
def cycle (s : State) : Result :=
  if s.fault ≠ .none then .fault (.halted s.fault)
  else
    match firstBadAddr s.pc.toNat 2 with
    | some a => raise .fetchOutOfRange (BitVec.ofNat 17 a) s
    | none => execDecoded (decode (fetchWord s)) s

/-- The inputs of one cycle, taken once before the fetch (R22, R23, R70). -/
def State.latch (s : State) (keys : BitVec 16) (rnd : Byte) : State := { s with keys := keys, rnd := rnd }

/-- The action the surroundings perform next is done: the others stay pending. -/
def State.setPending (s : State) (l : List HostAction) : State := { s with pending := l }

/-- A cycle for which the surroundings supply nothing: KEYS is all zeros, its value "when no
collaborator drives it" (R22), and RND is a fresh free value (R23; log 1, 2). -/
def State.latchUndriven (s : State) : State :=
  { s with keys := 0, rnd := Config.freeRnd s.draws, draws := s.draws + 1 }

/-- Perform the next action of the surroundings; with none pending, an undriven cycle (log 1). -/
def performNext (s : State) : Result :=
  match s.pending with
  | [] => cycle s.latchUndriven
  | .cycle keys rnd :: rest => cycle ((s.setPending rest).latch keys rnd)
  | .tick :: rest => .next (tick (s.setPending rest))
  | .load base bytes :: rest => .next (loadBytes base bytes (s.setPending rest))
  | .reset :: rest => .next (resetCore (s.setPending rest))

/-- The pending actions from the next cycle on: those before it are dropped. -/
def fromNextCycle : List HostAction → List HostAction
  | [] => []
  | .cycle keys rnd :: rest => .cycle keys rnd :: rest
  | .tick :: rest => fromNextCycle rest
  | .load _ _ :: rest => fromNextCycle rest
  | .reset :: rest => fromNextCycle rest

/-- The address the next instruction is fetched from, moved to ROM_BASE where it has no two bytes. -/
def fetchAddr (s : State) : Word :=
  match firstBadAddr s.pc.toNat 2 with
  | none => s.pc
  | some _ => Config.romBase

/-- `s` made ready so that its next step is a cycle that fetches `bytes` (log 4): the bytes stand at
PC, the core is not halted and the next action is a cycle. -/
def State.readyToFetch (s : State) (bytes : List Byte) : State :=
  { s with
    mem := memWriteBytes s.mem (fetchAddr s).toNat bytes
    pc := fetchAddr s
    fault := .none
    pending := fromNextCycle s.pending }

end Sys2Proof.Machine
end

