-- ==== Sys2Proof/Machine/Step.lean ====
section
/-! DEFINITION. One step of the machine: one whole action, a cycle, a tick, a load or a reset (R38). -/

namespace Sys2Proof.Machine

/-- One step: the next action of the surroundings (`performNext`). -/
def step (s : State) : Host.Outcome State Fault Refusal := performNext s

/-- `s` with the instruction whose bits are `w` stored where `step` fetches its next instruction. -/
def State.withFetchWord (s : State) (nbits w : Nat) : State := s.readyToFetch (tableBytes nbits w)

end Sys2Proof.Machine
end

