-- ==== Sys2Proof/Safety.lean ====
section
/-! DEFINITION. What claims are stated in: the halted core, the next action, the registers an
instruction may write, the fault it may raise, and the invariant of the machine. -/

namespace Sys2Proof.Machine

/-- The core is halted exactly when FAULT ≠ 0 (R144). -/
abbrev State.halted (s : State) : Prop := s.fault ≠ .none

/-- The two bytes at PC are inside memory, so that the fetch does not fault (R33). -/
abbrev State.fetchable (s : State) : Prop := s.pc.toNat ≤ 0xFFE

/-- `s` begins a cycle from `s₀`: the next action of the surroundings in `s₀` is a cycle, and `s` is
`s₀` with that action taken and the cycle's KEYS and RND latched (R22, R23, R70). -/
def BeginsCycle (s₀ s : State) : Prop :=
  (∃ keys rnd rest, s₀.pending = .cycle keys rnd :: rest ∧
    s = { s₀ with pending := rest, keys := keys, rnd := rnd }) ∨
  (s₀.pending = [] ∧
    s = { s₀ with keys := 0, rnd := Config.freeRnd s₀.draws, draws := s₀.draws + 1 })

/-- The general registers an instruction may write: its destination, the range of LD_REGS, and VF
for the six instructions that write the flag (R11). -/
def writesReg : Instr → Reg → Bool
  | .ldImm x _, r | .addImm x _, r | .rnd x _, r => r == x
  | .ldReg x _, r | .orReg x _, r | .andReg x _, r | .xorReg x _, r => r == x
  | .ldVxDt x, r => r == x
  | .addReg x _, r | .sub x _, r | .shr x _, r | .subn x _, r | .shl x _, r => r == x || r == .vf
  | .drw _ _ _, r => r == .vf
  | .ldRegs x, r => decide (r ≤ x)
  | .cls, _ | .ret, _ | .jp _, _ | .call _, _ | .ldI _, _ | .jpV0 _, _ => false
  | .seImm _ _, _ | .sneImm _ _, _ | .seReg _ _, _ | .sneReg _ _, _ => false
  | .skp _, _ | .sknp _, _ | .ldVxK _, _ | .ldDtVx _, _ | .ldStVx _, _ => false
  | .addI _, _ | .ldF _, _ | .ldB _, _ | .stRegs _, _ => false

/-- How many bytes from I up an instruction stores: three digits, or V[0] to V[x] (R35). -/
def bytesStored : Instr → Nat
  | .ldB _ => 3
  | .stRegs x => x.val + 1
  | .cls | .ret | .jp _ | .call _ | .seImm _ _ | .sneImm _ _ | .seReg _ _ | .ldImm _ _ => 0
  | .addImm _ _ | .ldReg _ _ | .orReg _ _ | .andReg _ _ | .xorReg _ _ | .addReg _ _ => 0
  | .sub _ _ | .shr _ _ | .subn _ _ | .shl _ _ | .sneReg _ _ | .ldI _ | .jpV0 _ => 0
  | .rnd _ _ | .drw _ _ _ | .skp _ | .sknp _ | .ldVxDt _ | .ldVxK _ | .ldDtVx _ => 0
  | .ldStVx _ | .addI _ | .ldF _ | .ldRegs _ => 0

/-- The one kind of fault an instruction can raise as it executes (R140, R145). -/
def faultOf : Instr → FaultCause
  | .ret => .stackUnderflow
  | .call _ => .stackOverflow
  | .drw _ _ _ | .ldB _ | .stRegs _ | .ldRegs _ => .memOutOfRange
  | .cls | .jp _ | .seImm _ _ | .sneImm _ _ | .seReg _ _ | .ldImm _ _ | .addImm _ _ => .none
  | .ldReg _ _ | .orReg _ _ | .andReg _ _ | .xorReg _ _ | .addReg _ _ | .sub _ _ => .none
  | .shr _ _ | .subn _ _ | .shl _ _ | .sneReg _ _ | .ldI _ | .jpV0 _ | .rnd _ _ => .none
  | .skp _ | .sknp _ | .ldVxDt _ | .ldVxK _ | .ldDtVx _ | .ldStVx _ | .addI _ | .ldF _ => .none

/-- How many of DRW's n rows are drawn from the row V[y] modulo 32 down: those past row 31 are clipped
(R122). -/
def drawnRows (s : State) (y : Reg) (n : RowCount) : Nat := min n.val (32 - (s.readV y).toNat % 32)

/-- The sprite bit DRW lays over the cell (cx, cy): 1 where the cell is inside the eight columns from
V[x] modulo 64 and the drawn rows from V[y] modulo 32, and the bit of that row's byte is 1, bit 7 at
the left (R122). -/
def spriteBit (s : State) (x y : Reg) (n : RowCount) (cx cy : Nat) : Bool :=
  let x0 := (s.readV x).toNat % 64
  let y0 := (s.readV y).toNat % 32
  decide (x0 ≤ cx ∧ cx ≤ x0 + 7 ∧ y0 ≤ cy ∧ cy < y0 + drawnRows s y n) &&
    (memRead s.mem (s.i.toNat + (cy - y0))).getLsbD (7 - (cx - x0))

/-- What the fault record says of the state a halted core stopped in (R140, R141, R149, R142). -/
def faultExplained (s : State) : Prop :=
  match s.fault with
  | .none => s.faultPc = 0 ∧ s.faultInfo = 0
  | .stackUnderflow => s.stack = [] ∧ s.faultInfo = 0x00EE
  | .stackOverflow => s.stackFull = true ∧ ∃ nnn, s.faultInfo = wordInfo (encode (.call nnn))
  | .fetchOutOfRange => 0xFFE < s.pc.toNat ∧ s.faultInfo.toNat = max s.pc.toNat 0x1000
  | .memOutOfRange => 0xFFF < s.i.toNat + 15 ∧ s.faultInfo.toNat = max s.i.toNat 0x1000

/-- While no cycle has completed, nothing but memory and the fault record has changed since reset
(R29, R162). -/
def untouched (s : State) : Prop :=
  s.v = State.reset.v ∧ s.i = 0 ∧ s.pc = Config.romBase ∧ s.stack = [] ∧ s.fb = blankFramebuffer ∧
  s.dt = 0 ∧ s.st = 0 ∧ s.dirty = false ∧ s.unk = false ∧ s.unkWord = 0

/-- The invariant of the machine. -/
structure Inv (s : State) : Prop where
  /-- Memory is in its canonical form, inside the 4096 cells (R30, R36). -/
  memory : s.mem.wf
  /-- SP is at most STACK_DEPTH (R16, R28). -/
  depth : ∀ d, s.params.stackDepth = some d → s.stack.length ≤ d
  /-- Every return address is the address after a CALL: 0x0002 to 0x1000 (R81). -/
  returns : ∀ r ∈ s.stack, 2 ≤ r.toNat ∧ r.toNat ≤ 0x1000
  /-- PC is at most 0x10FE (R14, R28). -/
  pc : s.pc.toNat ≤ 0x10FE
  /-- A fault is precise: PC still addresses the faulting instruction (R143). -/
  precise : s.fault ≠ .none → s.faultPc = s.pc
  /-- The fault record names its cause (R140). -/
  explained : faultExplained s
  /-- In LOADING the core is as reset left it, but for memory and the fault record (R29, R162). -/
  loading : s.phase = .loading → untouched s
  /-- One cycle does not report both a display change and an unknown word (R20, R21). -/
  reports : ¬ (s.dirty = true ∧ s.unk = true)
  /-- The reported word is one the decoder does not know (R21, R74). -/
  unknown : s.unk = true → decode s.unkWord = .unknown s.unkWord

end Sys2Proof.Machine
end

