-- ==== Sys2Proof/Certificates/Slice0/Obligations.lean ====
section
/-! DEFINITION. The statements for the provers.  Each is about every state, reached or not, unless it
names a premise.  `exec i s` runs instruction i as a whole cycle: s is the state the cycle begins
in, with PC at the instruction and KEYS and RND latched in `s.keys`, `s.rnd` (log 1, 6).  An equation
`exec i s = .next { s with … }` says that nothing but the named fields changes.  Where a clause rests
on a choice the spec marks as its own, the docstring names the decision (D<n>,
spec/92_eei_decisions.md).  `phase := .running, dirty := false, unk := false` is what the cycle of R70
does around every instruction (R29, R20, R21, with D24, D21, D27); a statement that formalises one
rule alone leaves those three as they come (`t.phase`), and `ReportsAreOfThisCycle` says what they
are.  A word's pattern is R54's: the source gives those of CLS, JP, LD_IMM, DRW and FFFF; the others are
general knowledge the spec took in (G1, spec/93_implementation_defined.md). -/

open Sys2Proof Sys2Proof.Machine

/-! ### Display -/

/-- R121: CLS is the word 00E0; it leaves all 2048 cells unset and DIRTY set, and changes nothing else
but PC and what every cycle writes, UNK and PHASE.  VF is not written. -/
def Obligations.ClsClearsTheScreen : Prop :=
  ∀ s : State, decode 0x00E0 = .instr .cls ∧ ∃ t, exec .cls s = .next t ∧
    (∀ x < 64, ∀ y < 32, fbGet t.fb x y = false) ∧
    t = { s with phase := t.phase, unk := t.unk, pc := s.pc + 2, dirty := true, fb := t.fb }

/-- R122: DRW, where every drawn row is inside memory, XORs the sprite over the framebuffer, cell by
cell, and leaves VF = 1 exactly when a set cell was turned off, else 0, and DIRTY set exactly when a
cell was toggled; nothing else changes but PC, UNK and PHASE.  Otherwise it raises MemOutOfRange and
writes nothing else.  Coordinates are those the instruction found, also for x or y = F (D9); bit 7
is the left pixel (D19); clipped rows are not read (D20); the fault is D3, D6. -/
def Obligations.DrwXorsTheSpriteAndReportsCollision : Prop :=
  ∀ (s : State) (x y : Reg) (n : RowCount),
    decode (0xD#4 ++ (regBits x ++ (regBits y ++ BitVec.ofNat 4 n.val))) = .instr (.drw x y n) ∧
    ((∀ r < drawnRows s y n, s.i.toNat + r ≤ 0xFFF) →
      ∃ t, exec (.drw x y n) s = .next t ∧
        (∀ cx < 64, ∀ cy < 32, fbGet t.fb cx cy = (fbGet s.fb cx cy ^^ spriteBit s x y n cx cy)) ∧
        ((∃ cx < 64, ∃ cy < 32, fbGet s.fb cx cy = true ∧ spriteBit s x y n cx cy = true) →
          t.readV .vf = 1) ∧
        ((∀ cx < 64, ∀ cy < 32, fbGet s.fb cx cy = true → spriteBit s x y n cx cy = false) →
          t.readV .vf = 0) ∧
        (t.dirty = true ↔ ∃ cx < 64, ∃ cy < 32, spriteBit s x y n cx cy = true) ∧
        (∀ r, r ≠ Reg.vf → t.readV r = s.readV r) ∧
        t = { s with phase := .running, unk := false, pc := s.pc + 2,
                     dirty := t.dirty, fb := t.fb, v := t.v }) ∧
    (0 < drawnRows s y n → 0xFFF < s.i.toNat + (drawnRows s y n - 1) →
      exec (.drw x y n) s = .next { s with fault := .memOutOfRange, faultPc := s.pc,
                                           faultInfo := BitVec.ofNat 17 (max s.i.toNat 0x1000) })

/-- R123 (1), in its exact reading: drawing the same sprite twice from the same I, memory and
coordinates (so x and y are not F) restores the framebuffer, and the second draw leaves VF = 1
exactly when the first set a cell, else 0.  The case where the first set no cell is the spec's own
derivation from R122. -/
def Obligations.DrawingTwiceRestoresTheScreen : Prop :=
  ∀ (s : State) (x y : Reg) (n : RowCount), x ≠ Reg.vf → y ≠ Reg.vf →
    (∀ r < drawnRows s y n, s.i.toNat + r ≤ 0xFFF) →
    ∃ t u, exec (.drw x y n) s = .next t ∧ exec (.drw x y n) t = .next u ∧ u.fb = s.fb ∧
      ((∃ cx < 64, ∃ cy < 32, fbGet s.fb cx cy = false ∧ fbGet t.fb cx cy = true) →
        u.readV .vf = 1) ∧
      ((∀ cx < 64, ∀ cy < 32, fbGet t.fb cx cy = true → fbGet s.fb cx cy = true) →
        u.readV .vf = 0)

/-- R123 (2), a derivation the spec marks as its own: every cell a draw changes lies in the eight
columns and n rows from the origin, inside the grid. -/
def Obligations.DrawingStaysInItsRectangle : Prop :=
  ∀ (s : State) (x y : Reg) (n : RowCount),
    ∃ t, exec (.drw x y n) s = .next t ∧ ∀ cx < 64, ∀ cy < 32, fbGet t.fb cx cy ≠ fbGet s.fb cx cy →
      (s.readV x).toNat % 64 ≤ cx ∧ cx ≤ (s.readV x).toNat % 64 + 7 ∧
      (s.readV y).toNat % 32 ≤ cy ∧ cy + 1 ≤ (s.readV y).toNat % 32 + n.val

/-! ### Control transfer -/

/-- R81: RET is the word 00EE; it pops the newest return address into PC, and on an empty stack it
raises StackUnderflow, FAULT = 1, with the word as info and nothing else written. -/
def Obligations.RetPopsOrUnderflows : Prop :=
  decode 0x00EE = .instr .ret ∧ FaultCause.stackUnderflow.code = 1 ∧ ∀ s : State,
    (∀ older newest, s.stack = older ++ [newest] →
      exec .ret s = .next { s with phase := .running, dirty := false, unk := false,
                                   stack := older, pc := newest }) ∧
    (s.stack = [] → exec .ret s = .next { s with fault := .stackUnderflow, faultPc := s.pc,
                                                 faultInfo := 0x00EE })

/-- R82: JP is the word 1nnn; it writes the operand, zero-extended, to PC, and changes nothing else but
what every cycle writes, DIRTY, UNK and PHASE. -/
def Obligations.JpWritesPc : Prop :=
  ∀ (s : State) (nnn : Addr12), decode (0x1#4 ++ nnn) = .instr (.jp nnn) ∧
    ∃ t, exec (.jp nnn) s = .next t ∧ t.pc.toNat = nnn.toNat ∧
      t = { s with phase := t.phase, dirty := t.dirty, unk := t.unk, pc := t.pc }

/-- R83: CALL is the word 2nnn; with room on the stack it pushes the address after itself and jumps;
with STACK_DEPTH entries there it raises StackOverflow with its word, FAULT = 2, and writes nothing
else.  The bound and the fault are the spec's decisions D1 and D2; with STACK_DEPTH unbounded
(`stackDepth = none`) the first clause always applies. -/
def Obligations.CallPushesOrOverflows : Prop :=
  FaultCause.stackOverflow.code = 2 ∧ ∀ (s : State) (nnn : Addr12),
    decode (0x2#4 ++ nnn) = .instr (.call nnn) ∧
    ((∀ d, s.params.stackDepth = some d → s.stack.length < d) →
      ∃ t, exec (.call nnn) s = .next t ∧ t.pc.toNat = nnn.toNat ∧
        t = { s with phase := .running, dirty := false, unk := false,
                     stack := s.stack ++ [s.pc + 2], pc := t.pc }) ∧
    (s.params.stackDepth = some s.stack.length →
      ∃ t, exec (.call nnn) s = .next t ∧ t.faultInfo.toNat = 0x2000 + nnn.toNat ∧
        t = { s with fault := .stackOverflow, faultPc := s.pc, faultInfo := t.faultInfo })

/-- R83, the source's property: a call followed immediately by a return leaves PC at the address
after the call and the stack as it was. -/
def Obligations.CallThenReturnComesBack : Prop :=
  ∀ (s : State) (nnn : Addr12), (∀ d, s.params.stackDepth = some d → s.stack.length < d) →
    ∃ t u, exec (.call nnn) s = .next t ∧ exec .ret t = .next u ∧
      u.pc = s.pc + 2 ∧ u.stack = s.stack ∧ u.v = s.v ∧ u.mem = s.mem

/-- R84, R85: SE_IMM (3xkk) and SNE_IMM (4xkk) go on at a + 4 when V[x] equals, respectively differs
from, kk, and at a + 2 otherwise. -/
def Obligations.ImmediateSkips : Prop :=
  ∀ (s : State) (x : Reg) (kk : Byte),
    decode (0x3#4 ++ (regBits x ++ kk)) = .instr (.seImm x kk) ∧
    decode (0x4#4 ++ (regBits x ++ kk)) = .instr (.sneImm x kk) ∧
    exec (.seImm x kk) s = .next { s with phase := .running, dirty := false, unk := false,
                                          pc := if s.readV x = kk then s.pc + 4 else s.pc + 2 } ∧
    exec (.sneImm x kk) s = .next { s with phase := .running, dirty := false, unk := false,
                                           pc := if s.readV x = kk then s.pc + 2 else s.pc + 4 }

/-- R86, R87: SE_REG (5xy0) and SNE_REG (9xy0) go on at a + 4 when V[x] and V[y] are equal,
respectively differ, and at a + 2 otherwise; 5xyn and 9xyn with n ≠ 0 are UNKNOWN (D14). -/
def Obligations.RegisterSkips : Prop :=
  ∀ (s : State) (x y : Reg),
    decode (0x5#4 ++ (regBits x ++ (regBits y ++ 0x0#4))) = .instr (.seReg x y) ∧
    decode (0x9#4 ++ (regBits x ++ (regBits y ++ 0x0#4))) = .instr (.sneReg x y) ∧
    (∀ n : BitVec 4, n ≠ 0 →
      decode (0x5#4 ++ (regBits x ++ (regBits y ++ n))) =
        .unknown (0x5#4 ++ (regBits x ++ (regBits y ++ n))) ∧
      decode (0x9#4 ++ (regBits x ++ (regBits y ++ n))) =
        .unknown (0x9#4 ++ (regBits x ++ (regBits y ++ n)))) ∧
    exec (.seReg x y) s = .next
      { s with phase := .running, dirty := false, unk := false,
               pc := if s.readV x = s.readV y then s.pc + 4 else s.pc + 2 } ∧
    exec (.sneReg x y) s = .next
      { s with phase := .running, dirty := false, unk := false,
               pc := if s.readV x = s.readV y then s.pc + 2 else s.pc + 4 }

/-- R88: JP_V0 (Bnnn) writes nnn + V[0] to PC, a sum of at most 0x10FE that is not reduced to 12 bits
(D33); that the target is the operand plus V0 is the spec's resolution C9. -/
def Obligations.JpV0AddsV0 : Prop :=
  ∀ (s : State) (nnn : Addr12), decode (0xB#4 ++ nnn) = .instr (.jpV0 nnn) ∧
    ∃ t, exec (.jpV0 nnn) s = .next t ∧ t.pc.toNat = nnn.toNat + (s.readV 0).toNat ∧
      t = { s with phase := .running, dirty := false, unk := false, pc := t.pc }

/-! ### Register loads and arithmetic -/

/-- R92: LD_IMM (6xkk) writes kk to V[x], also where x = F, and changes nothing else but PC and what
every cycle writes, DIRTY, UNK and PHASE. -/
def Obligations.LdImmSetsRegister : Prop :=
  ∀ (s : State) (x : Reg) (kk : Byte), decode (0x6#4 ++ (regBits x ++ kk)) = .instr (.ldImm x kk) ∧
    ∃ t, exec (.ldImm x kk) s = .next t ∧
      (∀ r, t.readV r = if r = x then kk else s.readV r) ∧
      t = { s with phase := t.phase, dirty := t.dirty, unk := t.unk, pc := s.pc + 2, v := t.v }

/-- R93: ADD_IMM (7xkk) adds kk to V[x] modulo 256; no other register changes, so VF keeps its value
unless x = F (D12). -/
def Obligations.AddImmWrapsWithoutFlag : Prop :=
  ∀ (s : State) (x : Reg) (kk : Byte), decode (0x7#4 ++ (regBits x ++ kk)) = .instr (.addImm x kk) ∧
    ∃ t, exec (.addImm x kk) s = .next t ∧
      (t.readV x).toNat = ((s.readV x).toNat + kk.toNat) % 256 ∧
      (∀ r, r ≠ x → t.readV r = s.readV r) ∧
      t = { s with phase := .running, dirty := false, unk := false, pc := s.pc + 2, v := t.v }

/-- R94: LD_REG (8xy0) copies V[y] to V[x], and nothing else; x = F and y = F are plain registers. -/
def Obligations.LdRegCopies : Prop :=
  ∀ (s : State) (x y : Reg),
    decode (0x8#4 ++ (regBits x ++ (regBits y ++ 0x0#4))) = .instr (.ldReg x y) ∧
    ∃ t, exec (.ldReg x y) s = .next t ∧
      (∀ r, t.readV r = if r = x then s.readV y else s.readV r) ∧
      t = { s with phase := .running, dirty := false, unk := false, pc := s.pc + 2, v := t.v }

/-- R95, R96, R97: OR, AND, XOR (8xy1, 8xy2, 8xy3) write V[x] bit by bit; no other register changes,
so VF keeps its value unless x = F (D11). -/
def Obligations.LogicWritesNoFlag : Prop :=
  ∀ (s : State) (x y : Reg),
    decode (0x8#4 ++ (regBits x ++ (regBits y ++ 0x1#4))) = .instr (.orReg x y) ∧
    decode (0x8#4 ++ (regBits x ++ (regBits y ++ 0x2#4))) = .instr (.andReg x y) ∧
    decode (0x8#4 ++ (regBits x ++ (regBits y ++ 0x3#4))) = .instr (.xorReg x y) ∧
    ∃ o a e, exec (.orReg x y) s = .next o ∧ exec (.andReg x y) s = .next a ∧
      exec (.xorReg x y) s = .next e ∧
      (∀ k, (o.readV x).getLsbD k = ((s.readV x).getLsbD k || (s.readV y).getLsbD k)) ∧
      (∀ k, (a.readV x).getLsbD k = ((s.readV x).getLsbD k && (s.readV y).getLsbD k)) ∧
      (∀ k, (e.readV x).getLsbD k = ((s.readV x).getLsbD k ^^ (s.readV y).getLsbD k)) ∧
      (∀ r, r ≠ x → o.readV r = s.readV r ∧ a.readV r = s.readV r ∧ e.readV r = s.readV r) ∧
      o = { s with phase := .running, dirty := false, unk := false, pc := s.pc + 2, v := o.v } ∧
      a = { s with phase := .running, dirty := false, unk := false, pc := s.pc + 2, v := a.v } ∧
      e = { s with phase := .running, dirty := false, unk := false, pc := s.pc + 2, v := e.v }

/-- R98: ADD_REG (8xy4): VF = 1 exactly when the unsigned sum exceeds 255, else 0, and V[x] is the
sum modulo 256 where x ≠ F; with x = F the flag remains (D10). -/
def Obligations.AddRegSumAndCarry : Prop :=
  ∀ (s : State) (x y : Reg),
    decode (0x8#4 ++ (regBits x ++ (regBits y ++ 0x4#4))) = .instr (.addReg x y) ∧
    ∃ t, exec (.addReg x y) s = .next t ∧
      (x ≠ Reg.vf → (t.readV x).toNat = ((s.readV x).toNat + (s.readV y).toNat) % 256) ∧
      t.readV .vf = (if (s.readV x).toNat + (s.readV y).toNat > 255 then 1 else 0) ∧
      (∀ r, r ≠ x → r ≠ Reg.vf → t.readV r = s.readV r) ∧
      t = { s with phase := .running, dirty := false, unk := false, pc := s.pc + 2, v := t.v }

/-- R99, R101: SUB (8xy5) and SUBN (8xy7): V[x] is the difference modulo 256 where x ≠ F, minuend
V[x] respectively V[y]; VF = 0 exactly when the minuend is less than the subtrahend, else 1; with
x = F the flag remains (D10). -/
def Obligations.SubtractsAndNotBorrow : Prop :=
  ∀ (s : State) (x y : Reg),
    decode (0x8#4 ++ (regBits x ++ (regBits y ++ 0x5#4))) = .instr (.sub x y) ∧
    decode (0x8#4 ++ (regBits x ++ (regBits y ++ 0x7#4))) = .instr (.subn x y) ∧
    ∃ t u, exec (.sub x y) s = .next t ∧ exec (.subn x y) s = .next u ∧
      (x ≠ Reg.vf → (t.readV x).toNat = ((s.readV x).toNat + 256 - (s.readV y).toNat) % 256) ∧
      (x ≠ Reg.vf → (u.readV x).toNat = ((s.readV y).toNat + 256 - (s.readV x).toNat) % 256) ∧
      t.readV .vf = (if (s.readV x).toNat < (s.readV y).toNat then 0 else 1) ∧
      u.readV .vf = (if (s.readV y).toNat < (s.readV x).toNat then 0 else 1) ∧
      (∀ r, r ≠ x → r ≠ Reg.vf → t.readV r = s.readV r ∧ u.readV r = s.readV r) ∧
      t = { s with phase := .running, dirty := false, unk := false, pc := s.pc + 2, v := t.v } ∧
      u = { s with phase := .running, dirty := false, unk := false, pc := s.pc + 2, v := u.v }

/-- R100, R102: SHR (8xy6) and SHL (8xyE) shift V[x] in place by one, y ignored: the result is in
V[x], also where x = F, when the flag is lost (D29); VF = the bit shifted out, 0 or 1, where x ≠ F. -/
def Obligations.ShiftsAndShiftedOutBit : Prop :=
  ∀ (s : State) (x y : Reg),
    decode (0x8#4 ++ (regBits x ++ (regBits y ++ 0x6#4))) = .instr (.shr x y) ∧
    decode (0x8#4 ++ (regBits x ++ (regBits y ++ 0xE#4))) = .instr (.shl x y) ∧
    ∃ t u, exec (.shr x y) s = .next t ∧ exec (.shl x y) s = .next u ∧
      (t.readV x).toNat = (s.readV x).toNat / 2 ∧
      (u.readV x).toNat = (s.readV x).toNat * 2 % 256 ∧
      (x ≠ Reg.vf → (t.readV .vf).toNat = (s.readV x).toNat % 2) ∧
      (x ≠ Reg.vf → (u.readV .vf).toNat = (s.readV x).toNat / 128) ∧
      (∀ r, r ≠ x → r ≠ Reg.vf → t.readV r = s.readV r ∧ u.readV r = s.readV r) ∧
      t = { s with phase := .running, dirty := false, unk := false, pc := s.pc + 2, v := t.v } ∧
      u = { s with phase := .running, dirty := false, unk := false, pc := s.pc + 2, v := u.v }

/-! ### Index and memory -/

/-- R111: LD_I (Annn) writes nnn to I; its upper four bits become 0. -/
def Obligations.LdISetsIndex : Prop :=
  ∀ (s : State) (nnn : Addr12), decode (0xA#4 ++ nnn) = .instr (.ldI nnn) ∧
    ∃ t, exec (.ldI nnn) s = .next t ∧ t.i.toNat = nnn.toNat ∧
      t = { s with phase := .running, dirty := false, unk := false, pc := s.pc + 2, i := t.i }

/-- R112: ADD_I (Fx1E) adds V[x] to I modulo 65536 (D4); no register changes, VF included (D13). -/
def Obligations.AddIWrapsWithoutFlag : Prop :=
  ∀ (s : State) (x : Reg), decode (0xF#4 ++ (regBits x ++ 0x1E#8)) = .instr (.addI x) ∧
    ∃ t, exec (.addI x) s = .next t ∧
      t.i.toNat = (s.i.toNat + (s.readV x).toNat) % 65536 ∧
      t = { s with phase := .running, dirty := false, unk := false, pc := s.pc + 2, i := t.i }

/-- R113: LD_F (Fx29) writes FONT_BASE + FONT_STRIDE × V[x] to I, with the whole byte; the formula
and the stride are the spec's decision D18 (the default stride is 5).  That the sum is taken modulo
65536 is the model's own choice (log 13, DESIGN CHOICE), not the spec's: it shows only for strides
above 256, of which the spec says nothing. -/
def Obligations.LdFComputesGlyphAddress : Prop :=
  ∀ (s : State) (x : Reg), decode (0xF#4 ++ (regBits x ++ 0x29#8)) = .instr (.ldF x) ∧
    ∃ t, exec (.ldF x) s = .next t ∧
      t.i.toNat = (0x50 + s.params.fontStride * (s.readV x).toNat) % 65536 ∧
      t = { s with phase := .running, dirty := false, unk := false, pc := s.pc + 2, i := t.i }

/-- R114: LD_B (Fx33): with I at most 0xFFD the bytes at I, I + 1, I + 2 become the hundreds, tens and
ones of V[x], each at most 9, and every other byte is as it was; otherwise MemOutOfRange, with the
lowest address above 0xFFF and nothing else written (D3, D6). -/
def Obligations.LdBStoresDecimalDigits : Prop :=
  ∀ (s : State) (x : Reg), decode (0xF#4 ++ (regBits x ++ 0x33#8)) = .instr (.ldB x) ∧
    (s.i.toNat ≤ 0xFFD →
      ∃ t, exec (.ldB x) s = .next t ∧
        (s.readV x).toNat = 100 * (memRead t.mem s.i.toNat).toNat +
          10 * (memRead t.mem (s.i.toNat + 1)).toNat + (memRead t.mem (s.i.toNat + 2)).toNat ∧
        (memRead t.mem s.i.toNat).toNat ≤ 2 ∧ (memRead t.mem (s.i.toNat + 1)).toNat ≤ 9 ∧
        (memRead t.mem (s.i.toNat + 2)).toNat ≤ 9 ∧
        (∀ a, a < s.i.toNat ∨ s.i.toNat + 2 < a → memRead t.mem a = memRead s.mem a) ∧
        t = { s with phase := .running, dirty := false, unk := false, pc := s.pc + 2,
                     mem := t.mem }) ∧
    (0xFFD < s.i.toNat →
      exec (.ldB x) s = .next { s with fault := .memOutOfRange, faultPc := s.pc,
                                       faultInfo := BitVec.ofNat 17 (max s.i.toNat 0x1000) })

/-- R115: ST_REGS (Fx55): with I + x at most 0xFFF the byte at I + k becomes V[k] for k = 0 to x,
every other byte is as it was, and I is unchanged; otherwise MemOutOfRange, with the lowest address
above 0xFFF and nothing else written (D3, D6). -/
def Obligations.StRegsStoresTheBlock : Prop :=
  ∀ (s : State) (x : Reg), decode (0xF#4 ++ (regBits x ++ 0x55#8)) = .instr (.stRegs x) ∧
    (s.i.toNat + x.val ≤ 0xFFF →
      ∃ t, exec (.stRegs x) s = .next t ∧
        (∀ k : Reg, k ≤ x → memRead t.mem (s.i.toNat + k.val) = s.readV k) ∧
        (∀ a, a < s.i.toNat ∨ s.i.toNat + x.val < a → memRead t.mem a = memRead s.mem a) ∧
        t = { s with phase := .running, dirty := false, unk := false, pc := s.pc + 2,
                     mem := t.mem }) ∧
    (0xFFF < s.i.toNat + x.val →
      exec (.stRegs x) s = .next { s with fault := .memOutOfRange, faultPc := s.pc,
                                          faultInfo := BitVec.ofNat 17 (max s.i.toNat 0x1000) })

/-- R116: LD_REGS (Fx65): with I + x at most 0xFFF, V[k] becomes the byte at I + k for k = 0 to x, the
registers above x are as they were, and I and memory are unchanged; otherwise MemOutOfRange, with
the lowest address above 0xFFF and nothing else written (D3, D6). -/
def Obligations.LdRegsLoadsTheBlock : Prop :=
  ∀ (s : State) (x : Reg), decode (0xF#4 ++ (regBits x ++ 0x65#8)) = .instr (.ldRegs x) ∧
    (s.i.toNat + x.val ≤ 0xFFF →
      ∃ t, exec (.ldRegs x) s = .next t ∧
        (∀ k : Reg, k ≤ x → t.readV k = memRead s.mem (s.i.toNat + k.val)) ∧
        (∀ k : Reg, x < k → t.readV k = s.readV k) ∧
        t = { s with phase := .running, dirty := false, unk := false, pc := s.pc + 2, v := t.v }) ∧
    (0xFFF < s.i.toNat + x.val →
      exec (.ldRegs x) s = .next { s with fault := .memOutOfRange, faultPc := s.pc,
                                          faultInfo := BitVec.ofNat 17 (max s.i.toNat 0x1000) })

/-- A derivation the spec marks as its own (R116, corner case 3): ST_REGS x, then LD_REGS x in any
state with that memory and the same I, restores V[0] to V[x]. -/
def Obligations.StoreThenLoadRestoresRegisters : Prop :=
  ∀ (s : State) (x : Reg), s.i.toNat + x.val ≤ 0xFFF → ∃ t, exec (.stRegs x) s = .next t ∧
    ∀ t', t'.mem = t.mem → t'.i = s.i → ∃ u, exec (.ldRegs x) t' = .next u ∧
      ∀ k : Reg, k ≤ x → u.readV k = s.readV k

/-! ### Random byte, keys, timers -/

/-- R131: RND (Cxkk) writes the cycle's random byte AND kk to V[x], so every bit that is 0 in kk is 0
in the result.  Nothing is assumed of the random byte (D22). -/
def Obligations.RndMasksTheRandomByte : Prop :=
  ∀ (s : State) (x : Reg) (kk : Byte), decode (0xC#4 ++ (regBits x ++ kk)) = .instr (.rnd x kk) ∧
    ∃ t, exec (.rnd x kk) s = .next t ∧
      (∀ k, (t.readV x).getLsbD k = (s.rnd.getLsbD k && kk.getLsbD k)) ∧
      (∀ r, r ≠ x → t.readV r = s.readV r) ∧
      t = { s with phase := .running, dirty := false, unk := false, pc := s.pc + 2, v := t.v }

/-- R132, R133 with R130: SKP (Ex9E) goes on at a + 4 exactly when V[x] is at most 0xF and that bit
of KEYS is 1; SKNP (ExA1) does the opposite.  That a value above 0xF is no key is D16. -/
def Obligations.KeySkips : Prop :=
  ∀ (s : State) (x : Reg),
    decode (0xE#4 ++ (regBits x ++ 0x9E#8)) = .instr (.skp x) ∧
    decode (0xE#4 ++ (regBits x ++ 0xA1#8)) = .instr (.sknp x) ∧
    ((s.readV x).toNat ≤ 0xF ∧ s.keys.getLsbD (s.readV x).toNat = true →
      exec (.skp x) s = .next { s with phase := .running, dirty := false, unk := false,
                                       pc := s.pc + 4 } ∧
      exec (.sknp x) s = .next { s with phase := .running, dirty := false, unk := false,
                                        pc := s.pc + 2 }) ∧
    (0xF < (s.readV x).toNat ∨ s.keys.getLsbD (s.readV x).toNat = false →
      exec (.skp x) s = .next { s with phase := .running, dirty := false, unk := false,
                                       pc := s.pc + 2 } ∧
      exec (.sknp x) s = .next { s with phase := .running, dirty := false, unk := false,
                                        pc := s.pc + 4 })

/-- R135: LD_VX_K (Fx0A) goes on at a + 2 when the key named by V[x] is down, and stays at a, with
nothing written but DIRTY, UNK and PHASE, when it is not.  No register is written (D17); a value
above 0xF is no key (D16). -/
def Obligations.KeyWaitReexecutesUntilPressed : Prop :=
  ∀ (s : State) (x : Reg), decode (0xF#4 ++ (regBits x ++ 0x0A#8)) = .instr (.ldVxK x) ∧
    ((s.readV x).toNat ≤ 0xF ∧ s.keys.getLsbD (s.readV x).toNat = true →
      exec (.ldVxK x) s = .next { s with phase := .running, dirty := false, unk := false,
                                         pc := s.pc + 2 }) ∧
    (0xF < (s.readV x).toNat ∨ s.keys.getLsbD (s.readV x).toNat = false →
      exec (.ldVxK x) s = .next { s with phase := .running, dirty := false, unk := false })

/-- R134, R136: LD_VX_DT (Fx07) copies DT to V[x]; LD_DT_VX (Fx15) copies V[x] to DT; each changes
nothing else. -/
def Obligations.DelayTimerGetAndSet : Prop :=
  ∀ (s : State) (x : Reg),
    decode (0xF#4 ++ (regBits x ++ 0x07#8)) = .instr (.ldVxDt x) ∧
    decode (0xF#4 ++ (regBits x ++ 0x15#8)) = .instr (.ldDtVx x) ∧
    (∃ t, exec (.ldVxDt x) s = .next t ∧
      (∀ r, t.readV r = if r = x then s.dt else s.readV r) ∧
      t = { s with phase := .running, dirty := false, unk := false, pc := s.pc + 2, v := t.v }) ∧
    ∃ t, exec (.ldDtVx x) s = .next t ∧
      t = { s with phase := .running, dirty := false, unk := false, pc := s.pc + 2,
                   dt := s.readV x }

/-- R137: LD_ST_VX (Fx18) copies V[x] to ST and changes nothing else; and no instruction reads ST
(D28): run with another ST, every instruction but LD_ST_VX gives the same state with that ST. -/
def Obligations.SoundTimerIsSetAndNeverRead : Prop :=
  ∀ (s : State) (x : Reg) (b : Byte),
    decode (0xF#4 ++ (regBits x ++ 0x18#8)) = .instr (.ldStVx x) ∧
    (∃ t, exec (.ldStVx x) s = .next t ∧
      t = { s with phase := .running, dirty := false, unk := false, pc := s.pc + 2,
                   st := s.readV x }) ∧
    exec (.ldStVx x) { s with st := b } = exec (.ldStVx x) s ∧
    ∀ i : Instr, (∀ y, i ≠ .ldStVx y) → ∃ t, exec i s = .next t ∧
      exec i { s with st := b } = .next { t with st := b }

/-! ### The cycle -/

/-- R70: when the next action is a cycle, the core is not halted, PC has two bytes in memory, and
those bytes, high byte first, decode to an instruction, the step runs exactly that instruction.  The
inputs latched for the cycle are the model's own form of KEYS and RND (log 1). -/
def Obligations.StepRunsTheDecodedInstruction : Prop :=
  ∀ (s₀ s : State) (i : Instr), BeginsCycle s₀ s → s₀.fault = .none → s₀.pc.toNat ≤ 0xFFE →
    decode (memRead s₀.mem s₀.pc.toNat ++ memRead s₀.mem (s₀.pc.toNat + 1)) = .instr i →
    step s₀ = exec i s

/-- R74: a fetched word the decoder does not know leaves PC at a + 2, UNK set and UNK_WORD the word,
and changes nothing else but DIRTY and PHASE: it is not a fault.  The two report registers are the
spec's decision D27. -/
def Obligations.UnknownWordIsAnInertStep : Prop :=
  ∀ (s₀ s : State) (w : Word), BeginsCycle s₀ s → s₀.fault = .none → s₀.pc.toNat ≤ 0xFFE →
    w = memRead s₀.mem s₀.pc.toNat ++ memRead s₀.mem (s₀.pc.toNat + 1) → (∀ i, decode w ≠ .instr i) →
    step s₀ = .next { s with phase := .running, dirty := false, unk := true, unkWord := w,
                             pc := s₀.pc + 2 }

/-- R142, R33: a fetch at a PC above 0xFFE raises FetchOutOfRange, FAULT = 3: nothing is written but
the record, whose info is PC, or 0x1000 when PC is 0xFFF (D3, D6). -/
def Obligations.FetchAboveMemoryFaults : Prop :=
  FaultCause.fetchOutOfRange.code = 3 ∧ FaultCause.memOutOfRange.code = 4 ∧
  ∀ s₀ s : State, BeginsCycle s₀ s → s₀.fault = .none → 0xFFE < s₀.pc.toNat →
    step s₀ = .next { s with fault := .fetchOutOfRange, faultPc := s₀.pc,
                             faultInfo := if s₀.pc = 0xFFF then 0x1000 else s₀.pc.setWidth 17 }

/-- R143, R145: an instruction of a running core either leaves the fault record alone or raises the
one fault of its kind, and then the record is all that changed.  Nothing-is-kept is D6; one kind per
instruction is the spec's derivation from R140. -/
def Obligations.FaultsArePreciseAndOfOneKind : Prop :=
  ∀ (i : Instr) (s : State), s.fault = .none → ∃ t, exec i s = .next t ∧
    ((t.fault = .none ∧ t.faultPc = s.faultPc ∧ t.faultInfo = s.faultInfo ∧ t.phase = .running) ∨
     (t.fault = faultOf i ∧ t.fault ≠ .none ∧
      t = { s with fault := faultOf i, faultPc := s.pc, faultInfo := t.faultInfo }))

/-- R33: the bounds check of an access answers the lowest of its addresses above 0xFFF, and answers
nothing exactly when there is none; addresses are not reduced (D3, D5). -/
def Obligations.BoundsCheckFindsTheLowestOffender : Prop :=
  ∀ base count : Nat,
    (firstBadAddr base count = none ↔ ∀ k < count, base + k ≤ 0xFFF) ∧
    (∀ a, firstBadAddr base count = some a ↔
      0xFFF < a ∧ (∃ k < count, a = base + k) ∧ ∀ k < count, 0xFFF < base + k → a ≤ base + k)

/-- R75, R144 (the halted state is D6): a step answers a next state unless it is a cycle asked of a
halted core, and then it stops with the cause.  The form is the model's: that raising a fault is a
next state and a halted core's cycle stops is log 7 (DEDUCED), that a tick or load which is not enabled
answers a next state is log 8 (DEDUCED), and that a step with nothing pending is a cycle is log 1
(DESIGN CHOICE). -/
def Obligations.OnlyAHaltedCoreStops : Prop :=
  ∀ s₀ : State,
    ((∃ s, BeginsCycle s₀ s) ∧ s₀.fault ≠ .none ↔ step s₀ = .fault (.halted s₀.fault)) ∧
    ((∀ s, ¬ BeginsCycle s₀ s) ∨ s₀.fault = .none ↔ ∃ t, step s₀ = .next t)

/-! ### The surroundings -/

/-- R144 (D6): a halted core accepts no tick and no load: nothing changes but the list of pending
actions and, for a load, the answer to it, which is the model's own (log 5). -/
def Obligations.HaltedCoreAcceptsNoTickAndNoLoad : Prop :=
  ∀ (s : State) (rest : List HostAction), s.fault ≠ .none →
    (s.pending = .tick :: rest → step s = .next { s with pending := rest }) ∧
    (∀ base bytes, s.pending = .load base bytes :: rest →
      step s = .next { s with pending := rest, loadReply := some .notEnabled })

/-- R150: N ticks of a core that is not halted leave DT = max(0, DT − N) and ST = max(0, ST − N), and
change nothing else. -/
def Obligations.TicksCountDownToZero : Prop :=
  ∀ (n : Nat) (s : State) (rest : List HostAction), s.fault = .none →
    s.pending = List.replicate n HostAction.tick ++ rest →
    ∃ t : State, core.run n s = .next t ∧ t.dt.toNat = s.dt.toNat - n ∧ t.st.toNat = s.st.toNat - n ∧
      t = { s with dt := t.dt, st := t.st, pending := rest }

/-- R151 (free interleaving is D26): no step but an LD_DT_VX raises DT, and no step but an LD_ST_VX
raises ST, whichever action of the surroundings it is. -/
def Obligations.TimersOnlyFallUntilWritten : Prop :=
  ∀ s₀ t : State, step s₀ = .next t →
    (t.dt.toNat ≤ s₀.dt.toNat ∨
      ∃ s x, BeginsCycle s₀ s ∧ decode (fetchWord s) = .instr (.ldDtVx x)) ∧
    (t.st.toNat ≤ s₀.st.toNat ∨
      ∃ s x, BeginsCycle s₀ s ∧ decode (fetchWord s) = .instr (.ldStVx x))

/-- R160, R26: a reset, in any state, halted or not, leaves every register, I, the stack, memory, the
framebuffer, the timers, the reports and the fault record zero, PC = 0x200 and PHASE = LOADING.  The
values for I, DT, ST, PC, DIRTY, UNK, the record and PHASE are decisions D23, D21, D27, D7, D24; what
stays, the rest of the pending actions, the parameters and the draw count, is the model's own
(log 15). -/
def Obligations.ResetActionClearsTheCore : Prop :=
  ∀ (s : State) (rest : List HostAction), s.pending = .reset :: rest → ∃ t, step s = .next t ∧
    (∀ r, t.readV r = 0) ∧ t.i = 0 ∧ t.pc = 0x200 ∧ t.stack = [] ∧ (∀ a, memRead t.mem a = 0) ∧
    (∀ x < 64, ∀ y < 32, fbGet t.fb x y = false) ∧ t.dt = 0 ∧ t.st = 0 ∧ t.dirty = false ∧
    t.unk = false ∧ t.unkWord = 0 ∧ t.fault = .none ∧ t.fault.code = 0 ∧ t.faultPc = 0 ∧
    t.faultInfo = 0 ∧ t.phase = .loading ∧
    t.pending = rest ∧ t.params = s.params ∧ t.draws = s.draws

/-- R26: the state after reset.  The values the source does not list are decisions D23, D21, D27, D7
and D24; that no action is pending and that the parameters are 16 and 5 is the model's own (log 1, 3,
14). -/
def Obligations.ResetStateValues : Prop :=
  (∀ r, State.reset.readV r = 0) ∧ State.reset.i = 0 ∧ State.reset.pc = 0x200 ∧
  State.reset.stack = [] ∧ (∀ a, memRead State.reset.mem a = 0) ∧
  (∀ x < 64, ∀ y < 32, fbGet State.reset.fb x y = false) ∧
  State.reset.dt = 0 ∧ State.reset.st = 0 ∧ State.reset.dirty = false ∧ State.reset.unk = false ∧
  State.reset.unkWord = 0 ∧ State.reset.fault = .none ∧ State.reset.faultPc = 0 ∧
  State.reset.faultInfo = 0 ∧ State.reset.phase = .loading ∧ State.reset.pending = [] ∧
  State.reset.params = { stackDepth := some 16, fontStride := 5 }

/-- R164: a load in LOADING places byte[k] at B + k and leaves every other byte untouched; one with
B + N > 4096 is refused whole, and one after the first cycle is not enabled; each changes nothing
else but the list of pending actions and the answer (log 5).  The two refusals are D24. -/
def Obligations.LoadPlacesItsBytes : Prop :=
  ∀ (s : State) (base : Nat) (bytes : List Byte) (rest : List HostAction),
    s.pending = .load base bytes :: rest → s.fault = .none →
    (s.phase = .loading → base + bytes.length ≤ 4096 →
      ∃ t, step s = .next t ∧
        (∀ k (h : k < bytes.length), memRead t.mem (base + k) = bytes[k]) ∧
        (∀ a, a < base ∨ base + bytes.length ≤ a → memRead t.mem a = memRead s.mem a) ∧
        t = { s with pending := rest, loadReply := some .accepted, mem := t.mem }) ∧
    (s.phase = .loading → 4096 < base + bytes.length →
      step s = .next { s with pending := rest, loadReply := some .loadError }) ∧
    (s.phase = .running →
      step s = .next { s with pending := rest, loadReply := some .notEnabled })

/-! ### Decoding -/

/-- R53: decoding is total and each instruction has its own words: decoding the word of any
instruction, with any operands, gives that instruction back (the patterns are R54's, most of them
general knowledge). -/
def Obligations.DecodeOfEncode : Prop := ∀ i : Instr, decode (encode i) = .instr i

/-- R53, R56: every word decodes either to an instruction whose word it is, or to UNKNOWN with that
word, and then it is the word of no instruction. -/
def Obligations.EncodeOfDecode : Prop :=
  ∀ w : Word, (∃ i, decode w = .instr i ∧ encode i = w) ∨
    (decode w = .unknown w ∧ ∀ i, encode i ≠ w)

/-- R56: the UNKNOWN words, family by family: an enumeration the spec marks as its own derivation
from R54. -/
def Obligations.UnknownWordsByFamily : Prop :=
  ∀ w : Word, decode w = .unknown w ↔
    (w.toNat / 4096 = 0x0 ∧ w ≠ 0x00E0 ∧ w ≠ 0x00EE) ∨
    (w.toNat / 4096 = 0x5 ∧ w.toNat % 16 ≠ 0) ∨
    (w.toNat / 4096 = 0x8 ∧ w.toNat % 16 ∈ [0x8, 0x9, 0xA, 0xB, 0xC, 0xD, 0xF]) ∨
    (w.toNat / 4096 = 0x9 ∧ w.toNat % 16 ≠ 0) ∨
    (w.toNat / 4096 = 0xE ∧ w.toNat % 256 ∉ [0x9E, 0xA1]) ∨
    (w.toNat / 4096 = 0xF ∧
      w.toNat % 256 ∉ [0x07, 0x0A, 0x15, 0x18, 0x1E, 0x29, 0x33, 0x55, 0x65])

/-- The source's own decode examples (spec/95_test_vectors.md S1) and one word of each other format. -/
def Obligations.DecodeExamples : Prop :=
  decode 0x00E0 = .instr .cls ∧ decode 0x1208 = .instr (.jp 0x208) ∧
  decode 0x6A05 = .instr (.ldImm 0xA 0x05) ∧ decode 0xD125 = .instr (.drw 1 2 5) ∧
  decode 0xFFFF = .unknown 0xFFFF ∧ decode 0x8AB4 = .instr (.addReg 0xA 0xB) ∧
  decode 0xFC55 = .instr (.stRegs 0xC) ∧ decode 0xEC9E = .instr (.skp 0xC)

/-! ### What each kind of state is changed by -/

/-- R35, R17: no instruction but LD_B and ST_REGS changes memory, and they change only the three,
respectively x + 1, bytes from I up. -/
def Obligations.OnlyStoresChangeMemory : Prop :=
  ∀ (i : Instr) (s : State), ∃ t, exec i s = .next t ∧
    ∀ a, a < s.i.toNat ∨ s.i.toNat + bytesStored i ≤ a → memRead t.mem a = memRead s.mem a

/-- R80, R90, R110, R116, R121, R122, R130 to R137, with R11 for the flag: a general register changes
only in an instruction that names it as destination, in LD_REGS when it is in the range, and, for VF,
in the six that write the flag.  That LD_VX_K writes no register is the spec's decision D17 (log 17). -/
def Obligations.OnlyDestinationsChange : Prop :=
  ∀ (i : Instr) (s : State), ∃ t, exec i s = .next t ∧
    ∀ r, writesReg i r = false → t.readV r = s.readV r

/-- R11: ADD_REG, SUB, SUBN, SHR, SHL with x ≠ F, and a DRW that completes (PC goes on), leave the full
byte 0x00 or 0x01 in VF; every other instruction leaves VF alone unless VF is its destination. -/
def Obligations.VfIsWrittenAsAFullByte : Prop :=
  ∀ (s : State) (x y : Reg) (n : RowCount),
    (x ≠ Reg.vf → ∀ i ∈ [Instr.addReg x y, .sub x y, .subn x y, .shr x y, .shl x y],
      ∃ t, exec i s = .next t ∧ (t.readV .vf = 0 ∨ t.readV .vf = 1)) ∧
    (∃ t, exec (.drw x y n) s = .next t ∧ (t.pc = s.pc + 2 → t.readV .vf = 0 ∨ t.readV .vf = 1)) ∧
    ∀ i : Instr, (∀ a b, i ≠ .addReg a b ∧ i ≠ .sub a b ∧ i ≠ .subn a b ∧ i ≠ .shr a b ∧
        i ≠ .shl a b) → (∀ a b m, i ≠ .drw a b m) →
      (∀ b kk, i ≠ .ldImm .vf kk ∧ i ≠ .addImm .vf kk ∧ i ≠ .rnd .vf kk ∧ i ≠ .ldReg .vf b ∧
        i ≠ .orReg .vf b ∧ i ≠ .andReg .vf b ∧ i ≠ .xorReg .vf b ∧ i ≠ .ldVxDt .vf ∧
        i ≠ .ldRegs .vf) →
      ∃ t, exec i s = .next t ∧ t.readV .vf = s.readV .vf

/-- R28: I is written only by LD_I, ADD_I and LD_F; the stack only by CALL and RET; the framebuffer
only by CLS and DRW; DT only by LD_DT_VX; ST only by LD_ST_VX (ticks and resets apart, which are no
instructions). -/
def Obligations.EachRegisterHasItsWriters : Prop :=
  ∀ (i : Instr) (s : State), ∃ t, exec i s = .next t ∧
    ((∀ n, i ≠ .ldI n) → (∀ x, i ≠ .addI x ∧ i ≠ .ldF x) → t.i = s.i) ∧
    (i ≠ .ret → (∀ n, i ≠ .call n) → t.stack = s.stack) ∧
    (i ≠ .cls → (∀ x y n, i ≠ .drw x y n) → t.fb = s.fb) ∧
    ((∀ x, i ≠ .ldDtVx x) → t.dt = s.dt) ∧ ((∀ x, i ≠ .ldStVx x) → t.st = s.st)

/-- R14: where the next instruction is fetched from after a cycle that does not fault, a being the
address of the one executed: a + 2, but for the skips (a + 2 or a + 4), the jumps, the call, the
return and the key-wait (a or a + 2).  PC arithmetic is modulo 65536 (D4). -/
def Obligations.PcAfterEachInstruction : Prop :=
  ∀ (i : Instr) (s : State), s.fault = .none → ∃ t, exec i s = .next t ∧ (t.fault = .none →
    match i with
    | .jp nnn | .call nnn => t.pc.toNat = nnn.toNat
    | .jpV0 nnn => t.pc.toNat = nnn.toNat + (s.readV .v0).toNat
    | .ret => s.stack.getLast? = some t.pc
    | .seImm _ _ | .sneImm _ _ | .seReg _ _ | .sneReg _ _ | .skp _ | .sknp _ =>
        t.pc = s.pc + 2 ∨ t.pc = s.pc + 4
    | .ldVxK _ => t.pc = s.pc ∨ t.pc = s.pc + 2
    | _ => t.pc = s.pc + 2)

/-- R20, R21, R29 (D21, D27, D24): after a cycle that does not fault, DIRTY is set only by CLS,
always, and by DRW; no instruction reports UNKNOWN or writes UNK_WORD; and PHASE is RUNNING. -/
def Obligations.ReportsAreOfThisCycle : Prop :=
  ∀ (i : Instr) (s : State), s.fault = .none → ∃ t, exec i s = .next t ∧ (t.fault = .none →
    t.unk = false ∧ t.unkWord = s.unkWord ∧ t.phase = .running ∧ (i = .cls → t.dirty = true) ∧
    (i ≠ .cls → (∀ x y n, i ≠ .drw x y n) → t.dirty = false))

/-! ### What execution does not depend on -/

/-- R20, R21, R76: DIRTY, UNK, UNK_WORD and PHASE are never read: a running core that differs only in
them executes every instruction alike, and agrees after it in all else. -/
def Obligations.ReportsNeverAffectExecution : Prop :=
  ∀ (i : Instr) (s : State) (d u : Bool) (w : Word) (p : Phase), ∃ t t', exec i s = .next t ∧
    exec i { s with dirty := d, unk := u, unkWord := w, phase := p } = .next t' ∧
    t' = { t with dirty := t'.dirty, unk := t'.unk, unkWord := w, phase := t'.phase } ∧
    (s.fault = .none → t.fault = .none → t'.dirty = t.dirty ∧ t'.unk = t.unk ∧ t'.phase = t.phase)

/-- R22, R23: only SKP, SKNP and LD_VX_K read KEYS, and only RND reads the random byte: every other
instruction does the same whatever the inputs of its cycle are. -/
def Obligations.InputsAreReadOnlyByTheirInstructions : Prop :=
  ∀ (i : Instr) (s : State) (k : BitVec 16) (b : Byte), ∃ t, exec i s = .next t ∧
    ((∀ x, i ≠ .skp x ∧ i ≠ .sknp x ∧ i ≠ .ldVxK x) →
      exec i { s with keys := k } = .next { t with keys := k }) ∧
    ((∀ x kk, i ≠ .rnd x kk) → exec i { s with rnd := b } = .next { t with rnd := b })

/-- R22, R25 (the latch is the model's own, log 1): the inputs of an earlier cycle are gone: a step
that is a cycle does the same whatever inputs were latched before it. -/
def Obligations.NoInputIsRemembered : Prop :=
  ∀ (s₀ s : State) (k : BitVec 16) (b : Byte), BeginsCycle s₀ s →
    step { s₀ with keys := k, rnd := b } = step s₀

/-- R40, a rule the spec derives from R38 and R25: bytes that ST_REGS stores where PC then points are
the next word fetched, V[0] its high byte. -/
def Obligations.StoredBytesAreFetched : Prop :=
  ∀ (s : State) (x k : Reg), s.i.toNat + x.val ≤ 0xFFF → k.val + 1 ≤ x.val →
    (s.pc + 2).toNat = s.i.toNat + k.val →
    ∃ t, exec (.stRegs x) s = .next t ∧ fetchWord t = s.readV k ++ s.readV (k + 1)

/-! ### The invariant -/

/-- The reset state meets the invariant.  Its memory clause is about the model's list form (log 10). -/
def Obligations.ResetMeetsTheInvariant : Prop := Inv State.reset

/-- From every state that meets the invariant, every step, cycle, tick, load or reset, gives a state
that meets it: memory stays canonical and inside its 4096 cells, SP within STACK_DEPTH, return
addresses and PC in their ranges, and the fault record explains the halted state.  The canonical list
form of memory is the model's own (log 10), as is that the parameters are a field no step changes
(log 3). -/
def Obligations.EveryStepKeepsTheInvariant : Prop :=
  ∀ s t : State, Inv s → step s = .next t → Inv t

/-- Under every schedule of the surroundings, loads of any program among them, and for every value of
the parameters, each state reached from reset meets the invariant.  The schedule as a list of pending
actions and the parameters as a field are the model's own (log 1, 3, 18). -/
def Obligations.EveryReachableStateMeetsTheInvariant : Prop :=
  ∀ (n : Nat) (schedule : List HostAction) (p : Config.Params) (t : State),
    core.run n { State.reset with pending := schedule, params := p } = .next t → Inv t
end

