-- ==== Sys2Proof/Laws/Encoding.lean ====
section
/-! SUPPORT. The fields of a word built in each of the five formats. -/

namespace Sys2Proof

theorem regBits_toNat (x : Reg) : (regBits x).toNat = x.val := by
  simp [regBits]

/-- A word of format A as a number. -/
theorem formatA_toNat (op : BitVec 4) (nnn : Addr12) :
    (formatA op nnn).toNat = op.toNat * 4096 + nnn.toNat := by
  have h := nnn.isLt
  simp only [formatA, BitVec.toNat_append]
  rw [← Nat.shiftLeft_add_eq_or_of_lt h, Nat.shiftLeft_eq]

/-- A word of format XK as a number. -/
theorem formatXK_toNat (op : BitVec 4) (x : Reg) (kk : Byte) :
    (formatXK op x kk).toNat = op.toNat * 4096 + x.val * 256 + kk.toNat := by
  have h1 := kk.isLt
  have h2 : (regBits x ++ kk).toNat < 2 ^ 12 := (regBits x ++ kk).isLt
  simp only [formatXK]
  rw [BitVec.toNat_append, ← Nat.shiftLeft_add_eq_or_of_lt h2, BitVec.toNat_append,
    ← Nat.shiftLeft_add_eq_or_of_lt h1, Nat.shiftLeft_eq, Nat.shiftLeft_eq, regBits_toNat]
  omega

/-- A word of format X as a number. -/
theorem formatX_toNat (op : BitVec 4) (x : Reg) (kk : Byte) :
    (formatX op x kk).toNat = op.toNat * 4096 + x.val * 256 + kk.toNat := formatXK_toNat op x kk

/-- A word of format XY as a number. -/
theorem formatXY_toNat (op : BitVec 4) (x y : Reg) (n : BitVec 4) :
    (formatXY op x y n).toNat = op.toNat * 4096 + x.val * 256 + y.val * 16 + n.toNat := by
  have h0 := n.isLt
  have h1 : (regBits y ++ n).toNat < 2 ^ 8 := (regBits y ++ n).isLt
  have h2 : (regBits x ++ (regBits y ++ n)).toNat < 2 ^ 12 := (regBits x ++ (regBits y ++ n)).isLt
  simp only [formatXY]
  rw [BitVec.toNat_append, ← Nat.shiftLeft_add_eq_or_of_lt h2, BitVec.toNat_append,
    ← Nat.shiftLeft_add_eq_or_of_lt h1, BitVec.toNat_append, ← Nat.shiftLeft_add_eq_or_of_lt h0,
    Nat.shiftLeft_eq, Nat.shiftLeft_eq, Nat.shiftLeft_eq, regBits_toNat, regBits_toNat]
  omega

/-! ### The fields of a word as numbers -/

theorem fieldOp_toNat (w : Word) : (fieldOp w).toNat = w.toNat / 4096 := by
  have := w.isLt
  simp [fieldOp, BitVec.extractLsb'_toNat, Nat.shiftRight_eq_div_pow]
  omega

theorem fieldX_val (w : Word) : (fieldX w).val = w.toNat / 256 % 16 := by
  simp [fieldX, BitVec.extractLsb'_toNat, Nat.shiftRight_eq_div_pow]

theorem fieldY_val (w : Word) : (fieldY w).val = w.toNat / 16 % 16 := by
  simp [fieldY, BitVec.extractLsb'_toNat, Nat.shiftRight_eq_div_pow]

theorem fieldN_toNat (w : Word) : (fieldN w).toNat = w.toNat % 16 := by
  simp [fieldN, BitVec.extractLsb'_toNat]

theorem fieldRows_val (w : Word) : (fieldRows w).val = w.toNat % 16 := fieldN_toNat w

theorem fieldKK_toNat (w : Word) : (fieldKK w).toNat = w.toNat % 256 := by
  simp [fieldKK, BitVec.extractLsb'_toNat]

theorem fieldNNN_toNat (w : Word) : (fieldNNN w).toNat = w.toNat % 4096 := by
  simp [fieldNNN, BitVec.extractLsb'_toNat]

/-! ### The fields of each format -/

section
variable (op : BitVec 4) (nnn : Addr12) (x y : Reg) (kk : Byte) (n : BitVec 4)

@[simp] theorem fieldOp_formatA : fieldOp (formatA op nnn) = op := by
  apply BitVec.eq_of_toNat_eq
  rw [fieldOp_toNat, formatA_toNat]; have := nnn.isLt; omega

@[simp] theorem fieldNNN_formatA : fieldNNN (formatA op nnn) = nnn := by
  apply BitVec.eq_of_toNat_eq
  rw [fieldNNN_toNat, formatA_toNat]; have := nnn.isLt; omega

@[simp] theorem fieldOp_formatXK : fieldOp (formatXK op x kk) = op := by
  apply BitVec.eq_of_toNat_eq
  rw [fieldOp_toNat, formatXK_toNat]; have := kk.isLt; omega

@[simp] theorem fieldX_formatXK : fieldX (formatXK op x kk) = x := by
  apply Fin.ext
  rw [fieldX_val, formatXK_toNat]; have := kk.isLt; omega

@[simp] theorem fieldKK_formatXK : fieldKK (formatXK op x kk) = kk := by
  apply BitVec.eq_of_toNat_eq
  rw [fieldKK_toNat, formatXK_toNat]; have := kk.isLt; omega

@[simp] theorem fieldOp_formatX : fieldOp (formatX op x kk) = op := fieldOp_formatXK op x kk
@[simp] theorem fieldX_formatX : fieldX (formatX op x kk) = x := fieldX_formatXK op x kk
@[simp] theorem fieldKK_formatX : fieldKK (formatX op x kk) = kk := fieldKK_formatXK op x kk

@[simp] theorem fieldOp_formatXY : fieldOp (formatXY op x y n) = op := by
  apply BitVec.eq_of_toNat_eq
  rw [fieldOp_toNat, formatXY_toNat]; have := n.isLt; omega

@[simp] theorem fieldX_formatXY : fieldX (formatXY op x y n) = x := by
  apply Fin.ext
  rw [fieldX_val, formatXY_toNat]; have := n.isLt; omega

@[simp] theorem fieldY_formatXY : fieldY (formatXY op x y n) = y := by
  apply Fin.ext
  rw [fieldY_val, formatXY_toNat]; have := n.isLt; omega

@[simp] theorem fieldN_formatXY : fieldN (formatXY op x y n) = n := by
  apply BitVec.eq_of_toNat_eq
  rw [fieldN_toNat, formatXY_toNat]; have := n.isLt; omega

@[simp] theorem fieldRows_formatXY (r : RowCount) :
    fieldRows (formatXY op x y (BitVec.ofNat 4 r.val)) = r := by
  apply Fin.ext
  rw [fieldRows_val, formatXY_toNat]; simp only [BitVec.toNat_ofNat]; omega

end

/-- Two bytes that a word was cut into make that word again. -/
theorem wordOfBytes_bytes (w : Word) : wordOfBytes (w.extractLsb' 8 8) (w.extractLsb' 0 8) = w := by
  apply BitVec.eq_of_toNat_eq
  have h : (w.extractLsb' 0 8).toNat < 2 ^ 8 := (w.extractLsb' 0 8).isLt
  have hw := w.isLt
  simp only [wordOfBytes, BitVec.toNat_append]
  rw [← Nat.shiftLeft_add_eq_or_of_lt h, Nat.shiftLeft_eq]
  simp [BitVec.extractLsb'_toNat, Nat.shiftRight_eq_div_pow]
  omega

end Sys2Proof
end

