-- ==== Sys2Proof/Laws/Framebuffer.lean ====
section
/-! SUPPORT. The laws of the framebuffer: a cell after a write, the blank screen, and that the cells
determine the framebuffer. -/

namespace Sys2Proof.Machine

/-- A cell of the grid after a write to a cell of the grid. -/
theorem fbGet_fbSet (fb : Framebuffer) {x y : Nat} (hx : x < 64) (hy : y < 32) (b : Bool) (p q : Nat) :
    fbGet (fbSet fb x y b) p q = if p = x ∧ q = y then b else fbGet fb p q := by
  rw [show fbSet fb x y b = _ from dif_pos ⟨hx, hy⟩]
  unfold fbGet
  by_cases h : p < 64 ∧ q < 32
  · rw [dif_pos h, dif_pos h]
    by_cases hq : q = y
    · subst hq
      by_cases hp : p = x
      · subst hp; simp
      · simp [hp, Ne.symm hp]
    · simp [hq, Ne.symm hq]
  · rw [dif_neg h, dif_neg h, if_neg]
    intro hpq
    exact h ⟨hpq.1 ▸ hx, hpq.2 ▸ hy⟩

@[simp] theorem fbGet_blank (x y : Nat) : fbGet blankFramebuffer x y = false := by
  unfold fbGet blankFramebuffer
  split <;> simp

/-- There is no set cell outside the grid. -/
theorem fbGet_outside (fb : Framebuffer) {x y : Nat} (h : ¬ (x < 64 ∧ y < 32)) : fbGet fb x y = false := by
  unfold fbGet
  rw [dif_neg h]

/-- Framebuffers with the same 2048 cells are equal. -/
theorem fb_ext {f g : Framebuffer} (h : ∀ x < 64, ∀ y < 32, fbGet f x y = fbGet g x y) : f = g := by
  apply Vector.ext
  intro y hy
  apply Vector.ext
  intro x hx
  have := h x hx y hy
  simpa [fbGet, hx, hy] using this

end Sys2Proof.Machine
end

