-- ==== Sys2Proof/Laws/Memory.lean ====
section
/-! SUPPORT. The laws of memory: a read after a write gives the byte written, a write leaves every
other address alone, and every memory operation keeps the canonical form. -/

namespace Sys2Proof.Machine

/-- The number, for omega. -/
theorem memSize_eq : Config.memSize = 4096 := rfl

@[simp] theorem memRead_nil (a : Nat) : memRead [] a = 0 := rfl

theorem memRead_cons (c : Host.Cell) (m : Memory) (a : Nat) :
    memRead (c :: m) a = if c.1 = a then c.2 else memRead m a := rfl

/-- No entry for an address: it reads as 0. -/
theorem memRead_of_absent {m : Memory} {a : Nat} (h : ∀ c ∈ m, c.1 ≠ a) : memRead m a = 0 := by
  induction m with
  | nil => rfl
  | cons c m ih =>
    rw [memRead_cons, if_neg (h c (by simp)), ih fun d hd => h d (by simp [hd])]

/-- Taking out the entries of another address changes nothing at this one. -/
theorem memRead_filter_ne (m : Memory) {a q : Nat} (h : q ≠ a) :
    memRead (m.filter (fun c => c.1 ≠ a)) q = memRead m q := by
  induction m with
  | nil => rfl
  | cons c m ih =>
    by_cases hc : c.1 = a
    · have hq : ¬ c.1 = q := fun e => h (e.symm.trans hc)
      rw [List.filter_cons_of_neg (by simp [hc]), ih, memRead_cons, if_neg hq]
    · rw [List.filter_cons_of_pos (by simp [hc]), memRead_cons, memRead_cons, ih]

/-- Insertion, read at any address of a memory that does not list the inserted one. -/
theorem memRead_memInsert (m : Memory) {a : Nat} (b : Byte) (q : Nat) (h : ∀ c ∈ m, c.1 ≠ a) :
    memRead (memInsert a b m) q = if q = a then b else memRead m q := by
  induction m with
  | nil => simp [memInsert, memRead_cons, eq_comm]
  | cons c m ih =>
    have hc : c.1 ≠ a := h c (by simp)
    have ih := ih fun d hd => h d (by simp [hd])
    by_cases hq : q = a
    · subst hq
      by_cases hlt : q < c.1 <;> simp [memInsert, hlt, memRead_cons, hc, ih]
    · by_cases hlt : a < c.1 <;> simp [memInsert, hlt, memRead_cons, hq, ih, Ne.symm hq]

/-- A write gives its byte at its address and leaves every other address as it was.  It holds of
every list, canonical or not. -/
@[simp] theorem memRead_memWrite (m : Memory) (a : Nat) (b : Byte) (q : Nat) :
    memRead (memWrite m a b) q = if q = a then b else memRead m q := by
  have habs : ∀ c ∈ m.filter (fun c => c.1 ≠ a), c.1 ≠ a := by simp
  unfold memWrite
  by_cases hb : b = 0
  · by_cases hq : q = a
    · subst hq; simpa [hb] using memRead_of_absent habs
    · simpa [hb, hq] using memRead_filter_ne m hq
  · simp only [hb, if_false]
    rw [memRead_memInsert _ b q habs]
    by_cases hq : q = a
    · rw [if_pos hq, if_pos hq]
    · rw [if_neg hq, if_neg hq, memRead_filter_ne m hq]

/-- Bytes written from `a` up: the k-th is read at `a + k`, every other address is as it was. -/
theorem memRead_memWriteBytes (m : Memory) (a : Nat) (bs : List Byte) (q : Nat) :
    memRead (memWriteBytes m a bs) q =
      if h : a ≤ q ∧ q < a + bs.length then bs[q - a]'(by omega) else memRead m q := by
  induction bs generalizing m a with
  | nil =>
    rw [dif_neg (by simp)]; rfl
  | cons b bs ih =>
    rw [memWriteBytes, ih, memRead_memWrite]
    by_cases h1 : q = a
    · subst h1; simp
    · by_cases h2 : a + 1 ≤ q ∧ q < a + 1 + bs.length
      · have h3 : a ≤ q ∧ q < a + (b :: bs).length := by simp only [List.length_cons]; omega
        have h4 : q - a = (q - (a + 1)) + 1 := by omega
        rw [dif_pos h2, dif_pos h3]; simp [h4]
      · have h3 : ¬ (a ≤ q ∧ q < a + (b :: bs).length) := by simp only [List.length_cons]; omega
        rw [dif_neg h2, dif_neg h3, if_neg h1]

@[simp] theorem memReadBytes_length (m : Memory) (a n : Nat) : (memReadBytes m a n).length = n := by
  simp [memReadBytes]

/-! ### The canonical form -/

theorem Memory.wf_nil : Memory.wf [] := by simp [Memory.wf]

theorem mem_memInsert {a : Nat} {b : Byte} {m : Memory} {c : Host.Cell} :
    c ∈ memInsert a b m ↔ c = (a, b) ∨ c ∈ m := by
  induction m with
  | nil => simp [memInsert]
  | cons d m ih =>
    by_cases h : a < d.1
    · simp [memInsert, h]
    · simp only [memInsert, h, if_false, List.mem_cons, ih]; tauto

theorem memInsert_pairwise {a : Nat} {b : Byte} {m : Memory}
    (h : m.Pairwise (fun c d => c.1 < d.1)) (habs : ∀ c ∈ m, c.1 ≠ a) :
    (memInsert a b m).Pairwise (fun c d => c.1 < d.1) := by
  induction m with
  | nil => simp [memInsert]
  | cons d m ih =>
    obtain ⟨hd, hm⟩ := List.pairwise_cons.1 h
    by_cases hlt : a < d.1
    · simp only [memInsert, hlt, if_true]
      refine List.pairwise_cons.2 ⟨?_, h⟩
      intro c hc
      rcases List.mem_cons.1 hc with rfl | hc
      · exact hlt
      · exact hlt.trans (hd c hc)
    · simp only [memInsert, hlt, if_false]
      refine List.pairwise_cons.2 ⟨?_, ih hm fun c hc => habs c (by simp [hc])⟩
      intro c hc
      rcases mem_memInsert.1 hc with rfl | hc
      · have := habs d (by simp); simp; omega
      · exact hd c hc

/-- A write inside memory keeps the canonical form. -/
theorem memWrite_wf {m : Memory} (h : m.wf) {a : Nat} (ha : a < Config.memSize) (b : Byte) :
    (memWrite m a b).wf := by
  have hp : (m.filter (fun c => c.1 ≠ a)).Pairwise (fun c d => c.1 < d.1) := h.1.filter _
  have hall : ∀ c ∈ m.filter (fun c => c.1 ≠ a), c.1 < Config.memSize ∧ c.2 ≠ 0 :=
    fun c hc => h.2 c (List.mem_filter.1 hc).1
  unfold memWrite
  by_cases hb : b = 0
  · simp only [hb, if_true]; exact ⟨hp, hall⟩
  · simp only [hb, if_false]
    refine ⟨memInsert_pairwise hp (by simp), ?_⟩
    intro c hc
    rcases mem_memInsert.1 hc with rfl | hc
    · exact ⟨ha, hb⟩
    · exact hall c hc

/-- Bytes written inside memory keep the canonical form. -/
theorem memWriteBytes_wf {m : Memory} (h : m.wf) {a : Nat} {bs : List Byte}
    (ha : a + bs.length ≤ Config.memSize) : (memWriteBytes m a bs).wf := by
  induction bs generalizing m a with
  | nil => exact h
  | cons b bs ih =>
    simp only [List.length_cons] at ha
    exact ih (memWrite_wf h (by omega) b) (by omega)

/-! ### The bounds check -/

/-- The check answers nothing exactly when every address of the access is inside memory. -/
theorem firstBadAddr_eq_none {base count : Nat} :
    firstBadAddr base count = none ↔ ∀ k < count, base + k < Config.memSize := by
  unfold firstBadAddr
  constructor
  · intro h k hk
    by_contra hc
    have : 0 < count ∧ Config.memSize < base + count := ⟨by omega, by omega⟩
    simp [this] at h
  · intro h
    rw [if_neg]
    rintro ⟨h0, h1⟩
    have := h (count - 1) (by omega)
    omega

/-- What the check answers when it answers. -/
theorem firstBadAddr_eq_some {base count a : Nat} (h : firstBadAddr base count = some a) :
    0 < count ∧ Config.memSize < base + count ∧ a = max base Config.memSize := by
  unfold firstBadAddr at h
  split at h
  · next hc => exact ⟨hc.1, hc.2, by simpa using h.symm⟩
  · simp at h

end Sys2Proof.Machine
end

