-- ==== Sys2Proof/Laws/State.lean ====
section
/-! SUPPORT. One lemma per field per update of the state, each true by rfl, so that no proof unfolds
a record update. -/

namespace Sys2Proof.Machine

variable (s : State)

@[simp] theorem State.setV_v (r : Reg) (b : Byte) : (s.setV r b).v = s.v.set r b := rfl
@[simp] theorem State.setV_i (r : Reg) (b : Byte) : (s.setV r b).i = s.i := rfl
@[simp] theorem State.setV_pc (r : Reg) (b : Byte) : (s.setV r b).pc = s.pc := rfl
@[simp] theorem State.setV_stack (r : Reg) (b : Byte) : (s.setV r b).stack = s.stack := rfl
@[simp] theorem State.setV_mem (r : Reg) (b : Byte) : (s.setV r b).mem = s.mem := rfl
@[simp] theorem State.setV_fb (r : Reg) (b : Byte) : (s.setV r b).fb = s.fb := rfl
@[simp] theorem State.setV_dt (r : Reg) (b : Byte) : (s.setV r b).dt = s.dt := rfl
@[simp] theorem State.setV_st (r : Reg) (b : Byte) : (s.setV r b).st = s.st := rfl
@[simp] theorem State.setV_dirty (r : Reg) (b : Byte) : (s.setV r b).dirty = s.dirty := rfl
@[simp] theorem State.setV_unk (r : Reg) (b : Byte) : (s.setV r b).unk = s.unk := rfl
@[simp] theorem State.setV_unkWord (r : Reg) (b : Byte) : (s.setV r b).unkWord = s.unkWord := rfl
@[simp] theorem State.setV_fault (r : Reg) (b : Byte) : (s.setV r b).fault = s.fault := rfl
@[simp] theorem State.setV_faultPc (r : Reg) (b : Byte) : (s.setV r b).faultPc = s.faultPc := rfl
@[simp] theorem State.setV_faultInfo (r : Reg) (b : Byte) : (s.setV r b).faultInfo = s.faultInfo := rfl
@[simp] theorem State.setV_phase (r : Reg) (b : Byte) : (s.setV r b).phase = s.phase := rfl
@[simp] theorem State.setV_keys (r : Reg) (b : Byte) : (s.setV r b).keys = s.keys := rfl
@[simp] theorem State.setV_rnd (r : Reg) (b : Byte) : (s.setV r b).rnd = s.rnd := rfl
@[simp] theorem State.setV_draws (r : Reg) (b : Byte) : (s.setV r b).draws = s.draws := rfl
@[simp] theorem State.setV_pending (r : Reg) (b : Byte) : (s.setV r b).pending = s.pending := rfl
@[simp] theorem State.setV_loadReply (r : Reg) (b : Byte) : (s.setV r b).loadReply = s.loadReply := rfl
@[simp] theorem State.setV_params (r : Reg) (b : Byte) : (s.setV r b).params = s.params := rfl

@[simp] theorem State.setRegs_v (v : Vector Byte 16) : (s.setRegs v).v = v := rfl
@[simp] theorem State.setRegs_i (v : Vector Byte 16) : (s.setRegs v).i = s.i := rfl
@[simp] theorem State.setRegs_pc (v : Vector Byte 16) : (s.setRegs v).pc = s.pc := rfl
@[simp] theorem State.setRegs_stack (v : Vector Byte 16) : (s.setRegs v).stack = s.stack := rfl
@[simp] theorem State.setRegs_mem (v : Vector Byte 16) : (s.setRegs v).mem = s.mem := rfl
@[simp] theorem State.setRegs_fb (v : Vector Byte 16) : (s.setRegs v).fb = s.fb := rfl
@[simp] theorem State.setRegs_dt (v : Vector Byte 16) : (s.setRegs v).dt = s.dt := rfl
@[simp] theorem State.setRegs_st (v : Vector Byte 16) : (s.setRegs v).st = s.st := rfl
@[simp] theorem State.setRegs_dirty (v : Vector Byte 16) : (s.setRegs v).dirty = s.dirty := rfl
@[simp] theorem State.setRegs_unk (v : Vector Byte 16) : (s.setRegs v).unk = s.unk := rfl
@[simp] theorem State.setRegs_unkWord (v : Vector Byte 16) : (s.setRegs v).unkWord = s.unkWord := rfl
@[simp] theorem State.setRegs_fault (v : Vector Byte 16) : (s.setRegs v).fault = s.fault := rfl
@[simp] theorem State.setRegs_faultPc (v : Vector Byte 16) : (s.setRegs v).faultPc = s.faultPc := rfl
@[simp] theorem State.setRegs_faultInfo (v : Vector Byte 16) : (s.setRegs v).faultInfo = s.faultInfo := rfl
@[simp] theorem State.setRegs_phase (v : Vector Byte 16) : (s.setRegs v).phase = s.phase := rfl
@[simp] theorem State.setRegs_keys (v : Vector Byte 16) : (s.setRegs v).keys = s.keys := rfl
@[simp] theorem State.setRegs_rnd (v : Vector Byte 16) : (s.setRegs v).rnd = s.rnd := rfl
@[simp] theorem State.setRegs_draws (v : Vector Byte 16) : (s.setRegs v).draws = s.draws := rfl
@[simp] theorem State.setRegs_pending (v : Vector Byte 16) : (s.setRegs v).pending = s.pending := rfl
@[simp] theorem State.setRegs_loadReply (v : Vector Byte 16) : (s.setRegs v).loadReply = s.loadReply := rfl
@[simp] theorem State.setRegs_params (v : Vector Byte 16) : (s.setRegs v).params = s.params := rfl

@[simp] theorem State.setI_v (w : Word) : (s.setI w).v = s.v := rfl
@[simp] theorem State.setI_i (w : Word) : (s.setI w).i = w := rfl
@[simp] theorem State.setI_pc (w : Word) : (s.setI w).pc = s.pc := rfl
@[simp] theorem State.setI_stack (w : Word) : (s.setI w).stack = s.stack := rfl
@[simp] theorem State.setI_mem (w : Word) : (s.setI w).mem = s.mem := rfl
@[simp] theorem State.setI_fb (w : Word) : (s.setI w).fb = s.fb := rfl
@[simp] theorem State.setI_dt (w : Word) : (s.setI w).dt = s.dt := rfl
@[simp] theorem State.setI_st (w : Word) : (s.setI w).st = s.st := rfl
@[simp] theorem State.setI_dirty (w : Word) : (s.setI w).dirty = s.dirty := rfl
@[simp] theorem State.setI_unk (w : Word) : (s.setI w).unk = s.unk := rfl
@[simp] theorem State.setI_unkWord (w : Word) : (s.setI w).unkWord = s.unkWord := rfl
@[simp] theorem State.setI_fault (w : Word) : (s.setI w).fault = s.fault := rfl
@[simp] theorem State.setI_faultPc (w : Word) : (s.setI w).faultPc = s.faultPc := rfl
@[simp] theorem State.setI_faultInfo (w : Word) : (s.setI w).faultInfo = s.faultInfo := rfl
@[simp] theorem State.setI_phase (w : Word) : (s.setI w).phase = s.phase := rfl
@[simp] theorem State.setI_keys (w : Word) : (s.setI w).keys = s.keys := rfl
@[simp] theorem State.setI_rnd (w : Word) : (s.setI w).rnd = s.rnd := rfl
@[simp] theorem State.setI_draws (w : Word) : (s.setI w).draws = s.draws := rfl
@[simp] theorem State.setI_pending (w : Word) : (s.setI w).pending = s.pending := rfl
@[simp] theorem State.setI_loadReply (w : Word) : (s.setI w).loadReply = s.loadReply := rfl
@[simp] theorem State.setI_params (w : Word) : (s.setI w).params = s.params := rfl
@[simp] theorem State.setI_readV (w : Word) (q : Reg) : (s.setI w).readV q = s.readV q := rfl

@[simp] theorem State.setPc_v (w : Word) : (s.setPc w).v = s.v := rfl
@[simp] theorem State.setPc_i (w : Word) : (s.setPc w).i = s.i := rfl
@[simp] theorem State.setPc_pc (w : Word) : (s.setPc w).pc = w := rfl
@[simp] theorem State.setPc_stack (w : Word) : (s.setPc w).stack = s.stack := rfl
@[simp] theorem State.setPc_mem (w : Word) : (s.setPc w).mem = s.mem := rfl
@[simp] theorem State.setPc_fb (w : Word) : (s.setPc w).fb = s.fb := rfl
@[simp] theorem State.setPc_dt (w : Word) : (s.setPc w).dt = s.dt := rfl
@[simp] theorem State.setPc_st (w : Word) : (s.setPc w).st = s.st := rfl
@[simp] theorem State.setPc_dirty (w : Word) : (s.setPc w).dirty = s.dirty := rfl
@[simp] theorem State.setPc_unk (w : Word) : (s.setPc w).unk = s.unk := rfl
@[simp] theorem State.setPc_unkWord (w : Word) : (s.setPc w).unkWord = s.unkWord := rfl
@[simp] theorem State.setPc_fault (w : Word) : (s.setPc w).fault = s.fault := rfl
@[simp] theorem State.setPc_faultPc (w : Word) : (s.setPc w).faultPc = s.faultPc := rfl
@[simp] theorem State.setPc_faultInfo (w : Word) : (s.setPc w).faultInfo = s.faultInfo := rfl
@[simp] theorem State.setPc_phase (w : Word) : (s.setPc w).phase = s.phase := rfl
@[simp] theorem State.setPc_keys (w : Word) : (s.setPc w).keys = s.keys := rfl
@[simp] theorem State.setPc_rnd (w : Word) : (s.setPc w).rnd = s.rnd := rfl
@[simp] theorem State.setPc_draws (w : Word) : (s.setPc w).draws = s.draws := rfl
@[simp] theorem State.setPc_pending (w : Word) : (s.setPc w).pending = s.pending := rfl
@[simp] theorem State.setPc_loadReply (w : Word) : (s.setPc w).loadReply = s.loadReply := rfl
@[simp] theorem State.setPc_params (w : Word) : (s.setPc w).params = s.params := rfl
@[simp] theorem State.setPc_readV (w : Word) (q : Reg) : (s.setPc w).readV q = s.readV q := rfl

@[simp] theorem State.setStack_v (l : List Word) : (s.setStack l).v = s.v := rfl
@[simp] theorem State.setStack_i (l : List Word) : (s.setStack l).i = s.i := rfl
@[simp] theorem State.setStack_pc (l : List Word) : (s.setStack l).pc = s.pc := rfl
@[simp] theorem State.setStack_stack (l : List Word) : (s.setStack l).stack = l := rfl
@[simp] theorem State.setStack_mem (l : List Word) : (s.setStack l).mem = s.mem := rfl
@[simp] theorem State.setStack_fb (l : List Word) : (s.setStack l).fb = s.fb := rfl
@[simp] theorem State.setStack_dt (l : List Word) : (s.setStack l).dt = s.dt := rfl
@[simp] theorem State.setStack_st (l : List Word) : (s.setStack l).st = s.st := rfl
@[simp] theorem State.setStack_dirty (l : List Word) : (s.setStack l).dirty = s.dirty := rfl
@[simp] theorem State.setStack_unk (l : List Word) : (s.setStack l).unk = s.unk := rfl
@[simp] theorem State.setStack_unkWord (l : List Word) : (s.setStack l).unkWord = s.unkWord := rfl
@[simp] theorem State.setStack_fault (l : List Word) : (s.setStack l).fault = s.fault := rfl
@[simp] theorem State.setStack_faultPc (l : List Word) : (s.setStack l).faultPc = s.faultPc := rfl
@[simp] theorem State.setStack_faultInfo (l : List Word) : (s.setStack l).faultInfo = s.faultInfo := rfl
@[simp] theorem State.setStack_phase (l : List Word) : (s.setStack l).phase = s.phase := rfl
@[simp] theorem State.setStack_keys (l : List Word) : (s.setStack l).keys = s.keys := rfl
@[simp] theorem State.setStack_rnd (l : List Word) : (s.setStack l).rnd = s.rnd := rfl
@[simp] theorem State.setStack_draws (l : List Word) : (s.setStack l).draws = s.draws := rfl
@[simp] theorem State.setStack_pending (l : List Word) : (s.setStack l).pending = s.pending := rfl
@[simp] theorem State.setStack_loadReply (l : List Word) : (s.setStack l).loadReply = s.loadReply := rfl
@[simp] theorem State.setStack_params (l : List Word) : (s.setStack l).params = s.params := rfl
@[simp] theorem State.setStack_readV (l : List Word) (q : Reg) : (s.setStack l).readV q = s.readV q := rfl

@[simp] theorem State.setMem_v (m : Memory) : (s.setMem m).v = s.v := rfl
@[simp] theorem State.setMem_i (m : Memory) : (s.setMem m).i = s.i := rfl
@[simp] theorem State.setMem_pc (m : Memory) : (s.setMem m).pc = s.pc := rfl
@[simp] theorem State.setMem_stack (m : Memory) : (s.setMem m).stack = s.stack := rfl
@[simp] theorem State.setMem_mem (m : Memory) : (s.setMem m).mem = m := rfl
@[simp] theorem State.setMem_fb (m : Memory) : (s.setMem m).fb = s.fb := rfl
@[simp] theorem State.setMem_dt (m : Memory) : (s.setMem m).dt = s.dt := rfl
@[simp] theorem State.setMem_st (m : Memory) : (s.setMem m).st = s.st := rfl
@[simp] theorem State.setMem_dirty (m : Memory) : (s.setMem m).dirty = s.dirty := rfl
@[simp] theorem State.setMem_unk (m : Memory) : (s.setMem m).unk = s.unk := rfl
@[simp] theorem State.setMem_unkWord (m : Memory) : (s.setMem m).unkWord = s.unkWord := rfl
@[simp] theorem State.setMem_fault (m : Memory) : (s.setMem m).fault = s.fault := rfl
@[simp] theorem State.setMem_faultPc (m : Memory) : (s.setMem m).faultPc = s.faultPc := rfl
@[simp] theorem State.setMem_faultInfo (m : Memory) : (s.setMem m).faultInfo = s.faultInfo := rfl
@[simp] theorem State.setMem_phase (m : Memory) : (s.setMem m).phase = s.phase := rfl
@[simp] theorem State.setMem_keys (m : Memory) : (s.setMem m).keys = s.keys := rfl
@[simp] theorem State.setMem_rnd (m : Memory) : (s.setMem m).rnd = s.rnd := rfl
@[simp] theorem State.setMem_draws (m : Memory) : (s.setMem m).draws = s.draws := rfl
@[simp] theorem State.setMem_pending (m : Memory) : (s.setMem m).pending = s.pending := rfl
@[simp] theorem State.setMem_loadReply (m : Memory) : (s.setMem m).loadReply = s.loadReply := rfl
@[simp] theorem State.setMem_params (m : Memory) : (s.setMem m).params = s.params := rfl
@[simp] theorem State.setMem_readV (m : Memory) (q : Reg) : (s.setMem m).readV q = s.readV q := rfl

@[simp] theorem State.setFb_v (f : Framebuffer) : (s.setFb f).v = s.v := rfl
@[simp] theorem State.setFb_i (f : Framebuffer) : (s.setFb f).i = s.i := rfl
@[simp] theorem State.setFb_pc (f : Framebuffer) : (s.setFb f).pc = s.pc := rfl
@[simp] theorem State.setFb_stack (f : Framebuffer) : (s.setFb f).stack = s.stack := rfl
@[simp] theorem State.setFb_mem (f : Framebuffer) : (s.setFb f).mem = s.mem := rfl
@[simp] theorem State.setFb_fb (f : Framebuffer) : (s.setFb f).fb = f := rfl
@[simp] theorem State.setFb_dt (f : Framebuffer) : (s.setFb f).dt = s.dt := rfl
@[simp] theorem State.setFb_st (f : Framebuffer) : (s.setFb f).st = s.st := rfl
@[simp] theorem State.setFb_dirty (f : Framebuffer) : (s.setFb f).dirty = s.dirty := rfl
@[simp] theorem State.setFb_unk (f : Framebuffer) : (s.setFb f).unk = s.unk := rfl
@[simp] theorem State.setFb_unkWord (f : Framebuffer) : (s.setFb f).unkWord = s.unkWord := rfl
@[simp] theorem State.setFb_fault (f : Framebuffer) : (s.setFb f).fault = s.fault := rfl
@[simp] theorem State.setFb_faultPc (f : Framebuffer) : (s.setFb f).faultPc = s.faultPc := rfl
@[simp] theorem State.setFb_faultInfo (f : Framebuffer) : (s.setFb f).faultInfo = s.faultInfo := rfl
@[simp] theorem State.setFb_phase (f : Framebuffer) : (s.setFb f).phase = s.phase := rfl
@[simp] theorem State.setFb_keys (f : Framebuffer) : (s.setFb f).keys = s.keys := rfl
@[simp] theorem State.setFb_rnd (f : Framebuffer) : (s.setFb f).rnd = s.rnd := rfl
@[simp] theorem State.setFb_draws (f : Framebuffer) : (s.setFb f).draws = s.draws := rfl
@[simp] theorem State.setFb_pending (f : Framebuffer) : (s.setFb f).pending = s.pending := rfl
@[simp] theorem State.setFb_loadReply (f : Framebuffer) : (s.setFb f).loadReply = s.loadReply := rfl
@[simp] theorem State.setFb_params (f : Framebuffer) : (s.setFb f).params = s.params := rfl
@[simp] theorem State.setFb_readV (f : Framebuffer) (q : Reg) : (s.setFb f).readV q = s.readV q := rfl

@[simp] theorem State.setDt_v (b : Byte) : (s.setDt b).v = s.v := rfl
@[simp] theorem State.setDt_i (b : Byte) : (s.setDt b).i = s.i := rfl
@[simp] theorem State.setDt_pc (b : Byte) : (s.setDt b).pc = s.pc := rfl
@[simp] theorem State.setDt_stack (b : Byte) : (s.setDt b).stack = s.stack := rfl
@[simp] theorem State.setDt_mem (b : Byte) : (s.setDt b).mem = s.mem := rfl
@[simp] theorem State.setDt_fb (b : Byte) : (s.setDt b).fb = s.fb := rfl
@[simp] theorem State.setDt_dt (b : Byte) : (s.setDt b).dt = b := rfl
@[simp] theorem State.setDt_st (b : Byte) : (s.setDt b).st = s.st := rfl
@[simp] theorem State.setDt_dirty (b : Byte) : (s.setDt b).dirty = s.dirty := rfl
@[simp] theorem State.setDt_unk (b : Byte) : (s.setDt b).unk = s.unk := rfl
@[simp] theorem State.setDt_unkWord (b : Byte) : (s.setDt b).unkWord = s.unkWord := rfl
@[simp] theorem State.setDt_fault (b : Byte) : (s.setDt b).fault = s.fault := rfl
@[simp] theorem State.setDt_faultPc (b : Byte) : (s.setDt b).faultPc = s.faultPc := rfl
@[simp] theorem State.setDt_faultInfo (b : Byte) : (s.setDt b).faultInfo = s.faultInfo := rfl
@[simp] theorem State.setDt_phase (b : Byte) : (s.setDt b).phase = s.phase := rfl
@[simp] theorem State.setDt_keys (b : Byte) : (s.setDt b).keys = s.keys := rfl
@[simp] theorem State.setDt_rnd (b : Byte) : (s.setDt b).rnd = s.rnd := rfl
@[simp] theorem State.setDt_draws (b : Byte) : (s.setDt b).draws = s.draws := rfl
@[simp] theorem State.setDt_pending (b : Byte) : (s.setDt b).pending = s.pending := rfl
@[simp] theorem State.setDt_loadReply (b : Byte) : (s.setDt b).loadReply = s.loadReply := rfl
@[simp] theorem State.setDt_params (b : Byte) : (s.setDt b).params = s.params := rfl
@[simp] theorem State.setDt_readV (b : Byte) (q : Reg) : (s.setDt b).readV q = s.readV q := rfl

@[simp] theorem State.setSt_v (b : Byte) : (s.setSt b).v = s.v := rfl
@[simp] theorem State.setSt_i (b : Byte) : (s.setSt b).i = s.i := rfl
@[simp] theorem State.setSt_pc (b : Byte) : (s.setSt b).pc = s.pc := rfl
@[simp] theorem State.setSt_stack (b : Byte) : (s.setSt b).stack = s.stack := rfl
@[simp] theorem State.setSt_mem (b : Byte) : (s.setSt b).mem = s.mem := rfl
@[simp] theorem State.setSt_fb (b : Byte) : (s.setSt b).fb = s.fb := rfl
@[simp] theorem State.setSt_dt (b : Byte) : (s.setSt b).dt = s.dt := rfl
@[simp] theorem State.setSt_st (b : Byte) : (s.setSt b).st = b := rfl
@[simp] theorem State.setSt_dirty (b : Byte) : (s.setSt b).dirty = s.dirty := rfl
@[simp] theorem State.setSt_unk (b : Byte) : (s.setSt b).unk = s.unk := rfl
@[simp] theorem State.setSt_unkWord (b : Byte) : (s.setSt b).unkWord = s.unkWord := rfl
@[simp] theorem State.setSt_fault (b : Byte) : (s.setSt b).fault = s.fault := rfl
@[simp] theorem State.setSt_faultPc (b : Byte) : (s.setSt b).faultPc = s.faultPc := rfl
@[simp] theorem State.setSt_faultInfo (b : Byte) : (s.setSt b).faultInfo = s.faultInfo := rfl
@[simp] theorem State.setSt_phase (b : Byte) : (s.setSt b).phase = s.phase := rfl
@[simp] theorem State.setSt_keys (b : Byte) : (s.setSt b).keys = s.keys := rfl
@[simp] theorem State.setSt_rnd (b : Byte) : (s.setSt b).rnd = s.rnd := rfl
@[simp] theorem State.setSt_draws (b : Byte) : (s.setSt b).draws = s.draws := rfl
@[simp] theorem State.setSt_pending (b : Byte) : (s.setSt b).pending = s.pending := rfl
@[simp] theorem State.setSt_loadReply (b : Byte) : (s.setSt b).loadReply = s.loadReply := rfl
@[simp] theorem State.setSt_params (b : Byte) : (s.setSt b).params = s.params := rfl
@[simp] theorem State.setSt_readV (b : Byte) (q : Reg) : (s.setSt b).readV q = s.readV q := rfl

@[simp] theorem State.setDirty_v (b : Bool) : (s.setDirty b).v = s.v := rfl
@[simp] theorem State.setDirty_i (b : Bool) : (s.setDirty b).i = s.i := rfl
@[simp] theorem State.setDirty_pc (b : Bool) : (s.setDirty b).pc = s.pc := rfl
@[simp] theorem State.setDirty_stack (b : Bool) : (s.setDirty b).stack = s.stack := rfl
@[simp] theorem State.setDirty_mem (b : Bool) : (s.setDirty b).mem = s.mem := rfl
@[simp] theorem State.setDirty_fb (b : Bool) : (s.setDirty b).fb = s.fb := rfl
@[simp] theorem State.setDirty_dt (b : Bool) : (s.setDirty b).dt = s.dt := rfl
@[simp] theorem State.setDirty_st (b : Bool) : (s.setDirty b).st = s.st := rfl
@[simp] theorem State.setDirty_dirty (b : Bool) : (s.setDirty b).dirty = b := rfl
@[simp] theorem State.setDirty_unk (b : Bool) : (s.setDirty b).unk = s.unk := rfl
@[simp] theorem State.setDirty_unkWord (b : Bool) : (s.setDirty b).unkWord = s.unkWord := rfl
@[simp] theorem State.setDirty_fault (b : Bool) : (s.setDirty b).fault = s.fault := rfl
@[simp] theorem State.setDirty_faultPc (b : Bool) : (s.setDirty b).faultPc = s.faultPc := rfl
@[simp] theorem State.setDirty_faultInfo (b : Bool) : (s.setDirty b).faultInfo = s.faultInfo := rfl
@[simp] theorem State.setDirty_phase (b : Bool) : (s.setDirty b).phase = s.phase := rfl
@[simp] theorem State.setDirty_keys (b : Bool) : (s.setDirty b).keys = s.keys := rfl
@[simp] theorem State.setDirty_rnd (b : Bool) : (s.setDirty b).rnd = s.rnd := rfl
@[simp] theorem State.setDirty_draws (b : Bool) : (s.setDirty b).draws = s.draws := rfl
@[simp] theorem State.setDirty_pending (b : Bool) : (s.setDirty b).pending = s.pending := rfl
@[simp] theorem State.setDirty_loadReply (b : Bool) : (s.setDirty b).loadReply = s.loadReply := rfl
@[simp] theorem State.setDirty_params (b : Bool) : (s.setDirty b).params = s.params := rfl
@[simp] theorem State.setDirty_readV (b : Bool) (q : Reg) : (s.setDirty b).readV q = s.readV q := rfl

@[simp] theorem State.reportUnknown_v (w : Word) : (s.reportUnknown w).v = s.v := rfl
@[simp] theorem State.reportUnknown_i (w : Word) : (s.reportUnknown w).i = s.i := rfl
@[simp] theorem State.reportUnknown_pc (w : Word) : (s.reportUnknown w).pc = s.pc := rfl
@[simp] theorem State.reportUnknown_stack (w : Word) : (s.reportUnknown w).stack = s.stack := rfl
@[simp] theorem State.reportUnknown_mem (w : Word) : (s.reportUnknown w).mem = s.mem := rfl
@[simp] theorem State.reportUnknown_fb (w : Word) : (s.reportUnknown w).fb = s.fb := rfl
@[simp] theorem State.reportUnknown_dt (w : Word) : (s.reportUnknown w).dt = s.dt := rfl
@[simp] theorem State.reportUnknown_st (w : Word) : (s.reportUnknown w).st = s.st := rfl
@[simp] theorem State.reportUnknown_dirty (w : Word) : (s.reportUnknown w).dirty = s.dirty := rfl
@[simp] theorem State.reportUnknown_unk (w : Word) : (s.reportUnknown w).unk = true := rfl
@[simp] theorem State.reportUnknown_unkWord (w : Word) : (s.reportUnknown w).unkWord = w := rfl
@[simp] theorem State.reportUnknown_fault (w : Word) : (s.reportUnknown w).fault = s.fault := rfl
@[simp] theorem State.reportUnknown_faultPc (w : Word) : (s.reportUnknown w).faultPc = s.faultPc := rfl
@[simp] theorem State.reportUnknown_faultInfo (w : Word) : (s.reportUnknown w).faultInfo = s.faultInfo := rfl
@[simp] theorem State.reportUnknown_phase (w : Word) : (s.reportUnknown w).phase = s.phase := rfl
@[simp] theorem State.reportUnknown_keys (w : Word) : (s.reportUnknown w).keys = s.keys := rfl
@[simp] theorem State.reportUnknown_rnd (w : Word) : (s.reportUnknown w).rnd = s.rnd := rfl
@[simp] theorem State.reportUnknown_draws (w : Word) : (s.reportUnknown w).draws = s.draws := rfl
@[simp] theorem State.reportUnknown_pending (w : Word) : (s.reportUnknown w).pending = s.pending := rfl
@[simp] theorem State.reportUnknown_loadReply (w : Word) : (s.reportUnknown w).loadReply = s.loadReply := rfl
@[simp] theorem State.reportUnknown_params (w : Word) : (s.reportUnknown w).params = s.params := rfl
@[simp] theorem State.reportUnknown_readV (w : Word) (q : Reg) : (s.reportUnknown w).readV q = s.readV q := rfl

@[simp] theorem State.setLoadReply_v (r : LoadReply) : (s.setLoadReply r).v = s.v := rfl
@[simp] theorem State.setLoadReply_i (r : LoadReply) : (s.setLoadReply r).i = s.i := rfl
@[simp] theorem State.setLoadReply_pc (r : LoadReply) : (s.setLoadReply r).pc = s.pc := rfl
@[simp] theorem State.setLoadReply_stack (r : LoadReply) : (s.setLoadReply r).stack = s.stack := rfl
@[simp] theorem State.setLoadReply_mem (r : LoadReply) : (s.setLoadReply r).mem = s.mem := rfl
@[simp] theorem State.setLoadReply_fb (r : LoadReply) : (s.setLoadReply r).fb = s.fb := rfl
@[simp] theorem State.setLoadReply_dt (r : LoadReply) : (s.setLoadReply r).dt = s.dt := rfl
@[simp] theorem State.setLoadReply_st (r : LoadReply) : (s.setLoadReply r).st = s.st := rfl
@[simp] theorem State.setLoadReply_dirty (r : LoadReply) : (s.setLoadReply r).dirty = s.dirty := rfl
@[simp] theorem State.setLoadReply_unk (r : LoadReply) : (s.setLoadReply r).unk = s.unk := rfl
@[simp] theorem State.setLoadReply_unkWord (r : LoadReply) : (s.setLoadReply r).unkWord = s.unkWord := rfl
@[simp] theorem State.setLoadReply_fault (r : LoadReply) : (s.setLoadReply r).fault = s.fault := rfl
@[simp] theorem State.setLoadReply_faultPc (r : LoadReply) : (s.setLoadReply r).faultPc = s.faultPc := rfl
@[simp] theorem State.setLoadReply_faultInfo (r : LoadReply) : (s.setLoadReply r).faultInfo = s.faultInfo := rfl
@[simp] theorem State.setLoadReply_phase (r : LoadReply) : (s.setLoadReply r).phase = s.phase := rfl
@[simp] theorem State.setLoadReply_keys (r : LoadReply) : (s.setLoadReply r).keys = s.keys := rfl
@[simp] theorem State.setLoadReply_rnd (r : LoadReply) : (s.setLoadReply r).rnd = s.rnd := rfl
@[simp] theorem State.setLoadReply_draws (r : LoadReply) : (s.setLoadReply r).draws = s.draws := rfl
@[simp] theorem State.setLoadReply_pending (r : LoadReply) : (s.setLoadReply r).pending = s.pending := rfl
@[simp] theorem State.setLoadReply_loadReply (r : LoadReply) : (s.setLoadReply r).loadReply = some r := rfl
@[simp] theorem State.setLoadReply_params (r : LoadReply) : (s.setLoadReply r).params = s.params := rfl
@[simp] theorem State.setLoadReply_readV (r : LoadReply) (q : Reg) : (s.setLoadReply r).readV q = s.readV q := rfl

@[simp] theorem State.beginCycle_v : (s.beginCycle).v = s.v := rfl
@[simp] theorem State.beginCycle_i : (s.beginCycle).i = s.i := rfl
@[simp] theorem State.beginCycle_pc : (s.beginCycle).pc = s.pc + 2 := rfl
@[simp] theorem State.beginCycle_stack : (s.beginCycle).stack = s.stack := rfl
@[simp] theorem State.beginCycle_mem : (s.beginCycle).mem = s.mem := rfl
@[simp] theorem State.beginCycle_fb : (s.beginCycle).fb = s.fb := rfl
@[simp] theorem State.beginCycle_dt : (s.beginCycle).dt = s.dt := rfl
@[simp] theorem State.beginCycle_st : (s.beginCycle).st = s.st := rfl
@[simp] theorem State.beginCycle_dirty : (s.beginCycle).dirty = false := rfl
@[simp] theorem State.beginCycle_unk : (s.beginCycle).unk = false := rfl
@[simp] theorem State.beginCycle_unkWord : (s.beginCycle).unkWord = s.unkWord := rfl
@[simp] theorem State.beginCycle_fault : (s.beginCycle).fault = s.fault := rfl
@[simp] theorem State.beginCycle_faultPc : (s.beginCycle).faultPc = s.faultPc := rfl
@[simp] theorem State.beginCycle_faultInfo : (s.beginCycle).faultInfo = s.faultInfo := rfl
@[simp] theorem State.beginCycle_phase : (s.beginCycle).phase = .running := rfl
@[simp] theorem State.beginCycle_keys : (s.beginCycle).keys = s.keys := rfl
@[simp] theorem State.beginCycle_rnd : (s.beginCycle).rnd = s.rnd := rfl
@[simp] theorem State.beginCycle_draws : (s.beginCycle).draws = s.draws := rfl
@[simp] theorem State.beginCycle_pending : (s.beginCycle).pending = s.pending := rfl
@[simp] theorem State.beginCycle_loadReply : (s.beginCycle).loadReply = s.loadReply := rfl
@[simp] theorem State.beginCycle_params : (s.beginCycle).params = s.params := rfl
@[simp] theorem State.beginCycle_readV (q : Reg) : (s.beginCycle).readV q = s.readV q := rfl

@[simp] theorem State.recordFault_v (c : FaultCause) (n : BitVec 17) : (s.recordFault c n).v = s.v := rfl
@[simp] theorem State.recordFault_i (c : FaultCause) (n : BitVec 17) : (s.recordFault c n).i = s.i := rfl
@[simp] theorem State.recordFault_pc (c : FaultCause) (n : BitVec 17) : (s.recordFault c n).pc = s.pc := rfl
@[simp] theorem State.recordFault_stack (c : FaultCause) (n : BitVec 17) : (s.recordFault c n).stack = s.stack := rfl
@[simp] theorem State.recordFault_mem (c : FaultCause) (n : BitVec 17) : (s.recordFault c n).mem = s.mem := rfl
@[simp] theorem State.recordFault_fb (c : FaultCause) (n : BitVec 17) : (s.recordFault c n).fb = s.fb := rfl
@[simp] theorem State.recordFault_dt (c : FaultCause) (n : BitVec 17) : (s.recordFault c n).dt = s.dt := rfl
@[simp] theorem State.recordFault_st (c : FaultCause) (n : BitVec 17) : (s.recordFault c n).st = s.st := rfl
@[simp] theorem State.recordFault_dirty (c : FaultCause) (n : BitVec 17) : (s.recordFault c n).dirty = s.dirty := rfl
@[simp] theorem State.recordFault_unk (c : FaultCause) (n : BitVec 17) : (s.recordFault c n).unk = s.unk := rfl
@[simp] theorem State.recordFault_unkWord (c : FaultCause) (n : BitVec 17) : (s.recordFault c n).unkWord = s.unkWord := rfl
@[simp] theorem State.recordFault_fault (c : FaultCause) (n : BitVec 17) : (s.recordFault c n).fault = c := rfl
@[simp] theorem State.recordFault_faultPc (c : FaultCause) (n : BitVec 17) : (s.recordFault c n).faultPc = s.pc := rfl
@[simp] theorem State.recordFault_faultInfo (c : FaultCause) (n : BitVec 17) : (s.recordFault c n).faultInfo = n := rfl
@[simp] theorem State.recordFault_phase (c : FaultCause) (n : BitVec 17) : (s.recordFault c n).phase = s.phase := rfl
@[simp] theorem State.recordFault_keys (c : FaultCause) (n : BitVec 17) : (s.recordFault c n).keys = s.keys := rfl
@[simp] theorem State.recordFault_rnd (c : FaultCause) (n : BitVec 17) : (s.recordFault c n).rnd = s.rnd := rfl
@[simp] theorem State.recordFault_draws (c : FaultCause) (n : BitVec 17) : (s.recordFault c n).draws = s.draws := rfl
@[simp] theorem State.recordFault_pending (c : FaultCause) (n : BitVec 17) : (s.recordFault c n).pending = s.pending := rfl
@[simp] theorem State.recordFault_loadReply (c : FaultCause) (n : BitVec 17) : (s.recordFault c n).loadReply = s.loadReply := rfl
@[simp] theorem State.recordFault_params (c : FaultCause) (n : BitVec 17) : (s.recordFault c n).params = s.params := rfl
@[simp] theorem State.recordFault_readV (c : FaultCause) (n : BitVec 17) (q : Reg) : (s.recordFault c n).readV q = s.readV q := rfl

@[simp] theorem State.latch_v (k : BitVec 16) (b : Byte) : (s.latch k b).v = s.v := rfl
@[simp] theorem State.latch_i (k : BitVec 16) (b : Byte) : (s.latch k b).i = s.i := rfl
@[simp] theorem State.latch_pc (k : BitVec 16) (b : Byte) : (s.latch k b).pc = s.pc := rfl
@[simp] theorem State.latch_stack (k : BitVec 16) (b : Byte) : (s.latch k b).stack = s.stack := rfl
@[simp] theorem State.latch_mem (k : BitVec 16) (b : Byte) : (s.latch k b).mem = s.mem := rfl
@[simp] theorem State.latch_fb (k : BitVec 16) (b : Byte) : (s.latch k b).fb = s.fb := rfl
@[simp] theorem State.latch_dt (k : BitVec 16) (b : Byte) : (s.latch k b).dt = s.dt := rfl
@[simp] theorem State.latch_st (k : BitVec 16) (b : Byte) : (s.latch k b).st = s.st := rfl
@[simp] theorem State.latch_dirty (k : BitVec 16) (b : Byte) : (s.latch k b).dirty = s.dirty := rfl
@[simp] theorem State.latch_unk (k : BitVec 16) (b : Byte) : (s.latch k b).unk = s.unk := rfl
@[simp] theorem State.latch_unkWord (k : BitVec 16) (b : Byte) : (s.latch k b).unkWord = s.unkWord := rfl
@[simp] theorem State.latch_fault (k : BitVec 16) (b : Byte) : (s.latch k b).fault = s.fault := rfl
@[simp] theorem State.latch_faultPc (k : BitVec 16) (b : Byte) : (s.latch k b).faultPc = s.faultPc := rfl
@[simp] theorem State.latch_faultInfo (k : BitVec 16) (b : Byte) : (s.latch k b).faultInfo = s.faultInfo := rfl
@[simp] theorem State.latch_phase (k : BitVec 16) (b : Byte) : (s.latch k b).phase = s.phase := rfl
@[simp] theorem State.latch_keys (k : BitVec 16) (b : Byte) : (s.latch k b).keys = k := rfl
@[simp] theorem State.latch_rnd (k : BitVec 16) (b : Byte) : (s.latch k b).rnd = b := rfl
@[simp] theorem State.latch_draws (k : BitVec 16) (b : Byte) : (s.latch k b).draws = s.draws := rfl
@[simp] theorem State.latch_pending (k : BitVec 16) (b : Byte) : (s.latch k b).pending = s.pending := rfl
@[simp] theorem State.latch_loadReply (k : BitVec 16) (b : Byte) : (s.latch k b).loadReply = s.loadReply := rfl
@[simp] theorem State.latch_params (k : BitVec 16) (b : Byte) : (s.latch k b).params = s.params := rfl
@[simp] theorem State.latch_readV (k : BitVec 16) (b : Byte) (q : Reg) : (s.latch k b).readV q = s.readV q := rfl

@[simp] theorem State.latchUndriven_v : (s.latchUndriven).v = s.v := rfl
@[simp] theorem State.latchUndriven_i : (s.latchUndriven).i = s.i := rfl
@[simp] theorem State.latchUndriven_pc : (s.latchUndriven).pc = s.pc := rfl
@[simp] theorem State.latchUndriven_stack : (s.latchUndriven).stack = s.stack := rfl
@[simp] theorem State.latchUndriven_mem : (s.latchUndriven).mem = s.mem := rfl
@[simp] theorem State.latchUndriven_fb : (s.latchUndriven).fb = s.fb := rfl
@[simp] theorem State.latchUndriven_dt : (s.latchUndriven).dt = s.dt := rfl
@[simp] theorem State.latchUndriven_st : (s.latchUndriven).st = s.st := rfl
@[simp] theorem State.latchUndriven_dirty : (s.latchUndriven).dirty = s.dirty := rfl
@[simp] theorem State.latchUndriven_unk : (s.latchUndriven).unk = s.unk := rfl
@[simp] theorem State.latchUndriven_unkWord : (s.latchUndriven).unkWord = s.unkWord := rfl
@[simp] theorem State.latchUndriven_fault : (s.latchUndriven).fault = s.fault := rfl
@[simp] theorem State.latchUndriven_faultPc : (s.latchUndriven).faultPc = s.faultPc := rfl
@[simp] theorem State.latchUndriven_faultInfo : (s.latchUndriven).faultInfo = s.faultInfo := rfl
@[simp] theorem State.latchUndriven_phase : (s.latchUndriven).phase = s.phase := rfl
@[simp] theorem State.latchUndriven_keys : (s.latchUndriven).keys = 0 := rfl
@[simp] theorem State.latchUndriven_rnd : (s.latchUndriven).rnd = Config.freeRnd s.draws := rfl
@[simp] theorem State.latchUndriven_draws : (s.latchUndriven).draws = s.draws + 1 := rfl
@[simp] theorem State.latchUndriven_pending : (s.latchUndriven).pending = s.pending := rfl
@[simp] theorem State.latchUndriven_loadReply : (s.latchUndriven).loadReply = s.loadReply := rfl
@[simp] theorem State.latchUndriven_params : (s.latchUndriven).params = s.params := rfl
@[simp] theorem State.latchUndriven_readV (q : Reg) : (s.latchUndriven).readV q = s.readV q := rfl

@[simp] theorem State.setPending_v (l : List HostAction) : (s.setPending l).v = s.v := rfl
@[simp] theorem State.setPending_i (l : List HostAction) : (s.setPending l).i = s.i := rfl
@[simp] theorem State.setPending_pc (l : List HostAction) : (s.setPending l).pc = s.pc := rfl
@[simp] theorem State.setPending_stack (l : List HostAction) : (s.setPending l).stack = s.stack := rfl
@[simp] theorem State.setPending_mem (l : List HostAction) : (s.setPending l).mem = s.mem := rfl
@[simp] theorem State.setPending_fb (l : List HostAction) : (s.setPending l).fb = s.fb := rfl
@[simp] theorem State.setPending_dt (l : List HostAction) : (s.setPending l).dt = s.dt := rfl
@[simp] theorem State.setPending_st (l : List HostAction) : (s.setPending l).st = s.st := rfl
@[simp] theorem State.setPending_dirty (l : List HostAction) : (s.setPending l).dirty = s.dirty := rfl
@[simp] theorem State.setPending_unk (l : List HostAction) : (s.setPending l).unk = s.unk := rfl
@[simp] theorem State.setPending_unkWord (l : List HostAction) : (s.setPending l).unkWord = s.unkWord := rfl
@[simp] theorem State.setPending_fault (l : List HostAction) : (s.setPending l).fault = s.fault := rfl
@[simp] theorem State.setPending_faultPc (l : List HostAction) : (s.setPending l).faultPc = s.faultPc := rfl
@[simp] theorem State.setPending_faultInfo (l : List HostAction) : (s.setPending l).faultInfo = s.faultInfo := rfl
@[simp] theorem State.setPending_phase (l : List HostAction) : (s.setPending l).phase = s.phase := rfl
@[simp] theorem State.setPending_keys (l : List HostAction) : (s.setPending l).keys = s.keys := rfl
@[simp] theorem State.setPending_rnd (l : List HostAction) : (s.setPending l).rnd = s.rnd := rfl
@[simp] theorem State.setPending_draws (l : List HostAction) : (s.setPending l).draws = s.draws := rfl
@[simp] theorem State.setPending_pending (l : List HostAction) : (s.setPending l).pending = l := rfl
@[simp] theorem State.setPending_loadReply (l : List HostAction) : (s.setPending l).loadReply = s.loadReply := rfl
@[simp] theorem State.setPending_params (l : List HostAction) : (s.setPending l).params = s.params := rfl
@[simp] theorem State.setPending_readV (l : List HostAction) (q : Reg) : (s.setPending l).readV q = s.readV q := rfl

/-- Reading a register after writing one. -/
@[simp] theorem State.setV_readV (r q : Reg) (b : Byte) :
    (s.setV r b).readV q = if q = r then b else s.readV q := by
  by_cases h : q = r
  · subst h; simp [State.readV, State.setV]
  · have : r.val ≠ q.val := fun e => h (Fin.ext e.symm)
    simp [State.readV, State.setV, h, this]

@[simp] theorem State.setRegs_readV (v : Vector Byte 16) (q : Reg) : (s.setRegs v).readV q = v[q] := rfl

/-- A push is a stack update. -/
@[simp] theorem State.push_eq (w : Word) : s.push w = s.setStack (s.stack ++ [w]) := rfl
/-- Dropping the newest entry is a stack update. -/
@[simp] theorem State.dropTop_eq : s.dropTop = s.setStack s.stack.dropLast := rfl

/-- Two states with equal fields are equal. -/
theorem State.ext_fields {s t : State} (hv : s.v = t.v) (hi : s.i = t.i) (hpc : s.pc = t.pc)
    (hstack : s.stack = t.stack) (hmem : s.mem = t.mem) (hfb : s.fb = t.fb) (hdt : s.dt = t.dt)
    (hst : s.st = t.st) (hdirty : s.dirty = t.dirty) (hunk : s.unk = t.unk)
    (hunkWord : s.unkWord = t.unkWord) (hfault : s.fault = t.fault) (hfaultPc : s.faultPc = t.faultPc)
    (hfaultInfo : s.faultInfo = t.faultInfo) (hphase : s.phase = t.phase) (hkeys : s.keys = t.keys)
    (hrnd : s.rnd = t.rnd) (hdraws : s.draws = t.draws) (hpending : s.pending = t.pending)
    (hreply : s.loadReply = t.loadReply) (hparams : s.params = t.params) : s = t := by
  cases s; cases t; simp_all

end Sys2Proof.Machine
end

