-- ==== Sys2Proof/Laws/Ops.lean ====
section
/-! SUPPORT. What each shared operation can do, said once. -/

namespace Sys2Proof.Machine

/-! ### Faults and accesses -/

@[simp] theorem raise_eq (c : FaultCause) (n : BitVec 17) (s : State) :
    raise c n s = .next (s.recordFault c n) := rfl

/-- An access whose bytes all lie inside memory leaves `ok`. -/
theorem accessAtI_ok {count : Nat} {s : State} (ok : State)
    (h : ∀ k < count, s.i.toNat + k < Config.memSize) : accessAtI count s ok = .next ok := by
  rw [accessAtI, firstBadAddr_eq_none.2 h]

/-- An access that reaches above 0xFFF raises MemOutOfRange with the lowest such address. -/
theorem accessAtI_bad {count : Nat} {s : State} (ok : State) (h0 : 0 < count)
    (h : Config.memSize < s.i.toNat + count) :
    accessAtI count s ok =
      .next (s.recordFault .memOutOfRange (BitVec.ofNat 17 (max s.i.toNat Config.memSize))) := by
  rw [accessAtI, firstBadAddr, if_pos ⟨h0, h⟩]; rfl

/-- Every outcome of an access: the state `ok` with all bytes inside memory, or the fault. -/
theorem accessAtI_cases (count : Nat) (s ok : State) :
    ((∀ k < count, s.i.toNat + k < Config.memSize) ∧ accessAtI count s ok = .next ok) ∨
    (0 < count ∧ Config.memSize < s.i.toNat + count ∧ accessAtI count s ok =
      .next (s.recordFault .memOutOfRange (BitVec.ofNat 17 (max s.i.toNat Config.memSize)))) := by
  by_cases h : 0 < count ∧ Config.memSize < s.i.toNat + count
  · exact .inr ⟨h.1, h.2, accessAtI_bad ok h.1 h.2⟩
  · have hk : ∀ k < count, s.i.toNat + k < Config.memSize := fun k hk => by omega
    exact .inl ⟨hk, accessAtI_ok ok hk⟩

/-- The address a memory fault reports fits FAULT_INFO. -/
theorem memFault_info_toNat (w : Word) :
    (BitVec.ofNat 17 (max w.toNat Config.memSize)).toNat = max w.toNat 0x1000 := by
  have := w.isLt
  rw [BitVec.toNat_ofNat]
  exact Nat.mod_eq_of_lt (by rw [memSize_eq]; omega)

/-! ### The stack -/

/-- The stack is full exactly when it is bounded and holds that many entries. -/
theorem stackFull_iff (s : State) :
    s.stackFull = true ↔ ∃ d, s.params.stackDepth = some d ∧ d ≤ s.stack.length := by
  unfold State.stackFull
  cases s.params.stackDepth <;> simp

theorem stackFull_false_iff (s : State) :
    s.stackFull = false ↔ ∀ d, s.params.stackDepth = some d → s.stack.length < d := by
  unfold State.stackFull
  cases s.params.stackDepth <;> simp

/-! ### Skips -/

theorem skipIf_true (s : State) : skipIf true s = s.beginCycle.setPc (s.pc + 2 + 2) := rfl
theorem skipIf_false (s : State) : skipIf false s = s.beginCycle := rfl

/-- A skip changes PC and nothing else but what every cycle does. -/
theorem skipIf_eq (c : Bool) (s : State) :
    skipIf c s = s.beginCycle.setPc (if c then s.pc + 2 + 2 else s.pc + 2) := by
  cases c <;> rfl

/-! ### Result and flag -/

@[simp] theorem resultThenFlag_readV (x r : Reg) (b : Byte) (f : Bool) (s : State) :
    (resultThenFlag x b f s).readV r =
      if r = .vf then flagByte f else if r = x then b else s.readV r := by
  simp [resultThenFlag]

@[simp] theorem flagThenResult_readV (x r : Reg) (b : Byte) (f : Bool) (s : State) :
    (flagThenResult x b f s).readV r =
      if r = x then b else if r = .vf then flagByte f else s.readV r := by
  simp [flagThenResult]

/-- The registers are the whole of what a pair of writes changes. -/
theorem resultThenFlag_eq (x : Reg) (b : Byte) (f : Bool) (s : State) :
    resultThenFlag x b f s = s.setRegs (resultThenFlag x b f s).v := rfl

theorem flagThenResult_eq (x : Reg) (b : Byte) (f : Bool) (s : State) :
    flagThenResult x b f s = s.setRegs (flagThenResult x b f s).v := rfl

/-- A register file is its sixteen registers. -/
theorem regs_ext {v w : Vector Byte 16} (h : ∀ r : Reg, v[r] = w[r]) : v = w :=
  Vector.ext fun i hi => h ⟨i, hi⟩

/-! ### Memory transfers -/

theorem bcdDigits_length (v : Byte) : (bcdDigits v).length = 3 := rfl

theorem regsUpTo_length (s : State) (x : Reg) : (regsUpTo s x).length = x.val + 1 := by
  have := x.isLt
  simp [regsUpTo]

theorem regsUpTo_get (s : State) (x : Reg) (k : Nat) (h : k < (regsUpTo s x).length) :
    (regsUpTo s x)[k] = s.readV ⟨k, by rw [regsUpTo_length] at h; omega⟩ := by
  simp [regsUpTo, State.readV]

theorem regsLoaded_get (s : State) (x r : Reg) :
    (regsLoaded s x)[r] = if r ≤ x then memRead s.mem (s.i.toNat + r.val) else s.readV r := by
  have h := Vector.getElem_ofFn (n := 16) (i := r.val)
    (f := fun k => if k.val ≤ x.val then memRead s.mem (s.i.toNat + k.val) else s.v[k]) r.isLt
  exact h

/-- A byte of memory after LD_B's store. -/
theorem memRead_bcd (m : Memory) (a : Nat) (v : Byte) (q : Nat) :
    memRead (memWriteBytes m a (bcdDigits v)) q =
      if q = a then BitVec.ofNat 8 (v.toNat / 100)
      else if q = a + 1 then BitVec.ofNat 8 (v.toNat / 10 % 10)
      else if q = a + 2 then BitVec.ofNat 8 (v.toNat % 10)
      else memRead m q := by
  simp only [bcdDigits, memWriteBytes, memRead_memWrite]
  split_ifs <;> first | rfl | omega

/-- A byte of memory after ST_REGS's store. -/
theorem memRead_regsUpTo (m : Memory) (a : Nat) (s : State) (x : Reg) (q : Nat) :
    memRead (memWriteBytes m a (regsUpTo s x)) q =
      if h : a ≤ q ∧ q ≤ a + x.val then s.readV ⟨q - a, by omega⟩ else memRead m q := by
  have hlen := regsUpTo_length s x
  rw [memRead_memWriteBytes]
  by_cases h : a ≤ q ∧ q ≤ a + x.val
  · rw [dif_pos h, dif_pos ⟨h.1, by omega⟩, regsUpTo_get]
  · rw [dif_neg h, dif_neg (by omega)]

/-! ### Timers -/

theorem timerDown_toNat (b : Byte) : (timerDown b).toNat = b.toNat - 1 := by
  unfold timerDown
  split
  · next h => subst h; rfl
  · next h =>
    have : b.toNat ≠ 0 := fun e => h (BitVec.eq_of_toNat_eq (by simpa using e))
    have := b.isLt
    bv_omega

/-! ### Drawing -/

/-- A draw toggles only cells of the grid: its bookkeeping says whether it toggled any. -/
theorem toggleCell_fb (d : Drawing) {x y : Nat} (hx : x < 64) (hy : y < 32) (p q : Nat) :
    fbGet (toggleCell d x y).fb p q =
      if p = x ∧ q = y then !fbGet d.fb p q else fbGet d.fb p q := by
  rw [toggleCell, fbGet_fbSet d.fb hx hy]
  by_cases h : p = x ∧ q = y
  · rw [if_pos h, if_pos h, h.1, h.2]
  · rw [if_neg h, if_neg h]

@[simp] theorem showDrawing_fb (d : Drawing) (s : State) : (showDrawing d s).fb = d.fb := rfl
@[simp] theorem showDrawing_dirty (d : Drawing) (s : State) : (showDrawing d s).dirty = d.changed := rfl
@[simp] theorem showDrawing_readV (d : Drawing) (s : State) (r : Reg) :
    (showDrawing d s).readV r = if r = .vf then flagByte d.collided else s.readV r := by
  simp [showDrawing]

/-- What a drawing leaves differs from the state it is shown on in FB, V and DIRTY only. -/
theorem showDrawing_eq (d : Drawing) (s : State) :
    showDrawing d s = { s with fb := d.fb, v := (showDrawing d s).v, dirty := d.changed } := rfl

/-! ### Reset and memory -/

theorem reset_mem_wf : Memory.wf State.reset.mem := Memory.wf_nil

theorem loadBytes_mem_wf {s : State} (h : s.mem.wf) (base : Nat) (bytes : List Byte) :
    (loadBytes base bytes s).mem.wf := by
  unfold loadBytes
  split
  · exact h
  · split
    · exact h
    · exact memWriteBytes_wf h (by omega)

end Sys2Proof.Machine
end

