-- ==== Sys2Proof/Laws/PerInstr.lean ====
section
/-! SUPPORT. Statements about every instruction as a term of `Instr`, one lemma per constructor.
`OpcodeRow`: the word `encode` gives is in the instruction's own row of the opcode map, that is,
`w & mask = match` (R53, R54). -/

namespace Sys2Proof.Laws

/-- A word under mask 0xF000 is its family in its top four bits. -/
theorem mask_F000 (w : Word) : (w &&& 0xF000#16).toNat = w.toNat / 4096 * 4096 := by
  have h : w &&& 0xF000#16 = (w >>> 12) <<< 12 := by
    apply BitVec.eq_of_getLsbD_eq
    intro k hk
    have hk' : k < 16 := hk
    interval_cases k <;> simp
  have := w.isLt
  rw [h, BitVec.toNat_shiftLeft, BitVec.toNat_ushiftRight, Nat.shiftRight_eq_div_pow, Nat.shiftLeft_eq]
  omega

/-- A word under mask 0x00FF is its low byte. -/
theorem mask_00FF (w : Word) : (w &&& 0x00FF#16).toNat = w.toNat % 256 := by
  rw [BitVec.toNat_and]
  exact Nat.and_two_pow_sub_one_eq_mod w.toNat 8

/-- A word under mask 0x000F is its low nibble. -/
theorem mask_000F (w : Word) : (w &&& 0x000F#16).toNat = w.toNat % 16 := by
  rw [BitVec.toNat_and]
  exact Nat.and_two_pow_sub_one_eq_mod w.toNat 4

theorem mask_F00F (w : Word) : (w &&& 0xF00F#16).toNat = w.toNat / 4096 * 4096 + w.toNat % 16 := by
  have h : w &&& 0xF00F#16 = (w &&& 0xF000#16) ||| (w &&& 0x000F#16) := by
    rw [← BitVec.and_or_distrib_left]; rfl
  have h2 : (w &&& 0xF000#16) &&& (w &&& 0x000F#16) = 0#16 := by
    apply BitVec.eq_of_getLsbD_eq
    intro k hk
    have hk' : k < 16 := hk
    interval_cases k <;> simp
  have hw := w.isLt
  rw [h, ← BitVec.add_eq_or_of_and_eq_zero _ _ h2, BitVec.toNat_add, mask_F000, mask_000F]
  omega

theorem mask_F0FF (w : Word) : (w &&& 0xF0FF#16).toNat = w.toNat / 4096 * 4096 + w.toNat % 256 := by
  have h : w &&& 0xF0FF#16 = (w &&& 0xF000#16) ||| (w &&& 0x00FF#16) := by
    rw [← BitVec.and_or_distrib_left]; rfl
  have h2 : (w &&& 0xF000#16) &&& (w &&& 0x00FF#16) = 0#16 := by
    apply BitVec.eq_of_getLsbD_eq
    intro k hk
    have hk' : k < 16 := hk
    interval_cases k <;> simp
  have hw := w.isLt
  rw [h, ← BitVec.add_eq_or_of_and_eq_zero _ _ h2, BitVec.toNat_add, mask_F000, mask_00FF]
  omega

/-- A word of format A is in the row (0xF000, op || 000). -/
theorem formatA_row (op : BitVec 4) (nnn : Addr12) (m : Word) (hm : m.toNat = op.toNat * 4096) :
    formatA op nnn &&& 0xF000#16 = m := by
  apply BitVec.eq_of_toNat_eq
  rw [mask_F000, formatA_toNat, hm]; have := nnn.isLt; omega

/-- A word of format XK is in the row (0xF000, op || 000). -/
theorem formatXK_row (op : BitVec 4) (x : Reg) (kk : Byte) (m : Word)
    (hm : m.toNat = op.toNat * 4096) : formatXK op x kk &&& 0xF000#16 = m := by
  apply BitVec.eq_of_toNat_eq
  rw [mask_F000, formatXK_toNat, hm]; have := kk.isLt; omega

/-- A word of format X is in the row (0xF0FF, op || 0 || kk). -/
theorem formatX_row (op : BitVec 4) (x : Reg) (kk : Byte) (m : Word)
    (hm : m.toNat = op.toNat * 4096 + kk.toNat) : formatX op x kk &&& 0xF0FF#16 = m := by
  apply BitVec.eq_of_toNat_eq
  rw [mask_F0FF, formatX_toNat, hm]; have := kk.isLt; omega

/-- A word of format XY with a fixed n is in the row (0xF00F, op || 00 || n). -/
theorem formatXY_row (op : BitVec 4) (x y : Reg) (n : BitVec 4) (m : Word)
    (hm : m.toNat = op.toNat * 4096 + n.toNat) : formatXY op x y n &&& 0xF00F#16 = m := by
  apply BitVec.eq_of_toNat_eq
  rw [mask_F00F, formatXY_toNat, hm]; have := n.isLt; omega

/-- DRW, whose n is an operand, is in the row (0xF000, op || 000). -/
theorem formatXY_row_any (op : BitVec 4) (x y : Reg) (n : BitVec 4) (m : Word)
    (hm : m.toNat = op.toNat * 4096) : formatXY op x y n &&& 0xF000#16 = m := by
  apply BitVec.eq_of_toNat_eq
  rw [mask_F000, formatXY_toNat, hm]; have := n.isLt; omega

end Sys2Proof.Laws

namespace Sys2Proof.Laws.OpcodeRow

/-- The instruction's word is in its row of the opcode map (R53, R54). -/
def Statement (i : Instr) : Prop := encode i &&& (opcodeRow i).1 = (opcodeRow i).2

theorem cls : Statement .cls := rfl
theorem ret : Statement .ret := rfl
theorem jp (nnn : Addr12) : Statement (.jp nnn) := formatA_row _ _ _ rfl
theorem call (nnn : Addr12) : Statement (.call nnn) := formatA_row _ _ _ rfl
theorem seImm (x : Reg) (kk : Byte) : Statement (.seImm x kk) := formatXK_row _ _ _ _ rfl
theorem sneImm (x : Reg) (kk : Byte) : Statement (.sneImm x kk) := formatXK_row _ _ _ _ rfl
theorem seReg (x y : Reg) : Statement (.seReg x y) := formatXY_row _ _ _ _ _ rfl
theorem ldImm (x : Reg) (kk : Byte) : Statement (.ldImm x kk) := formatXK_row _ _ _ _ rfl
theorem addImm (x : Reg) (kk : Byte) : Statement (.addImm x kk) := formatXK_row _ _ _ _ rfl
theorem ldReg (x y : Reg) : Statement (.ldReg x y) := formatXY_row _ _ _ _ _ rfl
theorem orReg (x y : Reg) : Statement (.orReg x y) := formatXY_row _ _ _ _ _ rfl
theorem andReg (x y : Reg) : Statement (.andReg x y) := formatXY_row _ _ _ _ _ rfl
theorem xorReg (x y : Reg) : Statement (.xorReg x y) := formatXY_row _ _ _ _ _ rfl
theorem addReg (x y : Reg) : Statement (.addReg x y) := formatXY_row _ _ _ _ _ rfl
theorem sub (x y : Reg) : Statement (.sub x y) := formatXY_row _ _ _ _ _ rfl
theorem shr (x y : Reg) : Statement (.shr x y) := formatXY_row _ _ _ _ _ rfl
theorem subn (x y : Reg) : Statement (.subn x y) := formatXY_row _ _ _ _ _ rfl
theorem shl (x y : Reg) : Statement (.shl x y) := formatXY_row _ _ _ _ _ rfl
theorem sneReg (x y : Reg) : Statement (.sneReg x y) := formatXY_row _ _ _ _ _ rfl
theorem ldI (nnn : Addr12) : Statement (.ldI nnn) := formatA_row _ _ _ rfl
theorem jpV0 (nnn : Addr12) : Statement (.jpV0 nnn) := formatA_row _ _ _ rfl
theorem rnd (x : Reg) (kk : Byte) : Statement (.rnd x kk) := formatXK_row _ _ _ _ rfl
theorem drw (x y : Reg) (n : RowCount) : Statement (.drw x y n) := formatXY_row_any _ _ _ _ _ rfl
theorem skp (x : Reg) : Statement (.skp x) := formatX_row _ _ _ _ rfl
theorem sknp (x : Reg) : Statement (.sknp x) := formatX_row _ _ _ _ rfl
theorem ldVxDt (x : Reg) : Statement (.ldVxDt x) := formatX_row _ _ _ _ rfl
theorem ldVxK (x : Reg) : Statement (.ldVxK x) := formatX_row _ _ _ _ rfl
theorem ldDtVx (x : Reg) : Statement (.ldDtVx x) := formatX_row _ _ _ _ rfl
theorem ldStVx (x : Reg) : Statement (.ldStVx x) := formatX_row _ _ _ _ rfl
theorem addI (x : Reg) : Statement (.addI x) := formatX_row _ _ _ _ rfl
theorem ldF (x : Reg) : Statement (.ldF x) := formatX_row _ _ _ _ rfl
theorem ldB (x : Reg) : Statement (.ldB x) := formatX_row _ _ _ _ rfl
theorem stRegs (x : Reg) : Statement (.stRegs x) := formatX_row _ _ _ _ rfl
theorem ldRegs (x : Reg) : Statement (.ldRegs x) := formatX_row _ _ _ _ rfl

end Sys2Proof.Laws.OpcodeRow
end

