-- ==== Sys2Proof/Laws/Step.lean ====
section
/-! SUPPORT. What one instruction and one step can do, said once: proofs about `exec`, `cycle` and
`step` cite these and do not unfold them. -/

namespace Sys2Proof.Machine

/-- Every instruction answers a next state: a fault it raises is one too (R143). -/
theorem exec_isNext (i : Instr) (s : State) : ∃ t, exec i s = .next t := by
  have haccess : ∀ (n : Nat) (ok : State), ∃ t, accessAtI n s ok = .next t := fun n ok => by
    rcases accessAtI_cases n s ok with ⟨-, h⟩ | ⟨-, -, h⟩ <;> exact ⟨_, h⟩
  cases i with
  | ret => simp only [exec, execRet]; split <;> exact ⟨_, rfl⟩
  | call nnn => simp only [exec, execCall]; split <;> exact ⟨_, rfl⟩
  | drw x y n => exact haccess _ _
  | ldB x => exact haccess _ _
  | stRegs x => exact haccess _ _
  | ldRegs x => exact haccess _ _
  | _ => exact ⟨_, rfl⟩

/-- The model's own fields, which no instruction writes. -/
structure SameSurroundings (s t : State) : Prop where
  keys : t.keys = s.keys
  rnd : t.rnd = s.rnd
  draws : t.draws = s.draws
  pending : t.pending = s.pending
  loadReply : t.loadReply = s.loadReply
  params : t.params = s.params

/-- No instruction writes the inputs, the pending actions or the parameters. -/
theorem exec_sameSurroundings {i : Instr} {s t : State} (h : exec i s = .next t) :
    SameSurroundings s t := by
  have hfault : ∀ c n, SameSurroundings s (s.recordFault c n) := fun _ _ => ⟨rfl, rfl, rfl, rfl, rfl, rfl⟩
  have haccess : ∀ (n : Nat) (ok : State), SameSurroundings s ok → accessAtI n s ok = .next t →
      SameSurroundings s t := fun n ok hok he => by
    rcases accessAtI_cases n s ok with ⟨-, h⟩ | ⟨-, -, h⟩ <;> rw [h] at he <;> cases he
    · exact hok
    · exact hfault _ _
  have hshow : ∀ d, SameSurroundings s (showDrawing d s.beginCycle) :=
    fun _ => ⟨rfl, rfl, rfl, rfl, rfl, rfl⟩
  have hmem : ∀ m, SameSurroundings s (s.beginCycle.setMem m) := fun _ => ⟨rfl, rfl, rfl, rfl, rfl, rfl⟩
  have hregs : ∀ v, SameSurroundings s (s.beginCycle.setRegs v) := fun _ => ⟨rfl, rfl, rfl, rfl, rfl, rfl⟩
  have hskip : ∀ c : Bool, SameSurroundings s (skipIf c s) := fun c => by
    cases c <;> exact ⟨rfl, rfl, rfl, rfl, rfl, rfl⟩
  cases i with
  | ret => simp only [exec, execRet] at h; split at h <;> cases h <;> exact ⟨rfl, rfl, rfl, rfl, rfl, rfl⟩
  | call nnn => simp only [exec, execCall] at h; split at h <;> cases h <;> exact ⟨rfl, rfl, rfl, rfl, rfl, rfl⟩
  | drw x y n => exact haccess _ _ (hshow (drawSprite s x y n)) h
  | ldB x => exact haccess _ _ (hmem (memWriteBytes s.mem s.i.toNat (bcdDigits (s.readV x)))) h
  | stRegs x => exact haccess _ _ (hmem (memWriteBytes s.mem s.i.toNat (regsUpTo s x))) h
  | ldRegs x => exact haccess _ _ (hregs (regsLoaded s x)) h
  | seImm x kk => cases h; exact hskip _
  | sneImm x kk => cases h; exact hskip _
  | seReg x y => cases h; exact hskip _
  | sneReg x y => cases h; exact hskip _
  | skp x => cases h; exact hskip _
  | sknp x => cases h; exact hskip _
  | ldVxK x =>
    cases h
    split <;> exact ⟨rfl, rfl, rfl, rfl, rfl, rfl⟩
  | _ => cases h; exact ⟨rfl, rfl, rfl, rfl, rfl, rfl⟩

/-- Everything a cycle can do in a core that is not halted (R70). -/
theorem cycle_cases {s : State} (h : s.fault = .none) :
    (∃ i, s.fetchable ∧ decode (fetchWord s) = .instr i ∧ cycle s = exec i s) ∨
    (∃ w, s.fetchable ∧ decode (fetchWord s) = .unknown w ∧
      cycle s = .next (s.beginCycle.reportUnknown w)) ∨
    (0xFFE < s.pc.toNat ∧ cycle s = .next (s.recordFault .fetchOutOfRange
      (BitVec.ofNat 17 (max s.pc.toNat Config.memSize)))) := by
  unfold cycle
  rw [if_neg (by simp [h])]
  by_cases hpc : s.pc.toNat ≤ 0xFFE
  · have hn : firstBadAddr s.pc.toNat 2 = none := by
      rw [firstBadAddr_eq_none]; intro k hk; rw [memSize_eq]; omega
    rw [hn]
    cases hd : decode (fetchWord s) with
    | instr i => exact .inl ⟨i, hpc, rfl, rfl⟩
    | unknown w => exact .inr (.inl ⟨w, hpc, rfl, rfl⟩)
  · have hs : firstBadAddr s.pc.toNat 2 = some (max s.pc.toNat Config.memSize) := by
      rw [firstBadAddr, if_pos]; rw [memSize_eq]; omega
    rw [hs]
    exact .inr (.inr ⟨by omega, rfl⟩)

/-- A halted core takes no cycle (R144). -/
theorem cycle_halted {s : State} (h : s.fault ≠ .none) : cycle s = .fault (.halted s.fault) := by
  rw [cycle, if_pos h]

/-- Everything a step can do: the next action of the surroundings, one of four (R38, R166). -/
theorem step_cases (s : State) :
    (∃ s', BeginsCycle s s' ∧ step s = cycle s') ∨
    (∃ rest, s.pending = .tick :: rest ∧ step s = .next (tick (s.setPending rest))) ∨
    (∃ base bytes rest, s.pending = .load base bytes :: rest ∧
      step s = .next (loadBytes base bytes (s.setPending rest))) ∨
    (∃ rest, s.pending = .reset :: rest ∧ step s = .next (resetCore (s.setPending rest))) := by
  unfold step performNext
  cases hp : s.pending with
  | nil => exact .inl ⟨_, .inr ⟨hp, rfl⟩, rfl⟩
  | cons a rest =>
    cases a with
    | reset => exact .inr (.inr (.inr ⟨rest, rfl, rfl⟩))
    | load base bytes => exact .inr (.inr (.inl ⟨base, bytes, rest, rfl, rfl⟩))
    | cycle keys rnd => exact .inl ⟨_, .inl ⟨keys, rnd, rest, hp, rfl⟩, rfl⟩
    | tick => exact .inr (.inl ⟨rest, rfl, rfl⟩)

/-- Beginning a cycle touches nothing but the inputs, the pending actions and the draw count. -/
theorem BeginsCycle.core_eq {s₀ s : State} (h : BeginsCycle s₀ s) :
    s = { s₀ with keys := s.keys, rnd := s.rnd, draws := s.draws, pending := s.pending } := by
  rcases h with ⟨k, r, rest, -, rfl⟩ | ⟨-, rfl⟩ <;> rfl

/-- A cycle that begins is what the step runs. -/
theorem BeginsCycle.step_eq {s₀ s : State} (h : BeginsCycle s₀ s) : step s₀ = cycle s := by
  rcases h with ⟨k, r, rest, hp, rfl⟩ | ⟨hp, rfl⟩
  · have : step s₀ = cycle ((s₀.setPending rest).latch k r) := by simp only [step, performNext, hp]
    exact this
  · have : step s₀ = cycle s₀.latchUndriven := by simp only [step, performNext, hp]
    exact this

/-- A run of `n + 1` steps of any machine is a step and a run of `n`. -/
theorem run_of_step (M : Host.Core) (n : Nat) {s t : M.State} (h : M.step s = .next t) :
    M.run (n + 1) s = M.run n t := by
  simp only [Host.Core.run, h]

/-- A run of `n + 1` steps of this machine is a step and a run of `n`. -/
theorem run_succ {s t : State} (n : Nat) (h : step s = .next t) :
    core.run (n + 1) s = core.run n t := run_of_step core n h

end Sys2Proof.Machine
end

