-- ==== Sys2Proof/Tests/Slice0.lean ====
section
/-! SUPPORT. The model's own tests: the smoke test of WellFormed, a word of every constructor's
decoding, single steps, and for every statement with hypotheses a state that meets them.  Expected
results are the spec's: its worked examples (41 to 45) and the vectors of spec/95_test_vectors.md. -/

namespace Sys2Proof.Tests

open Sys2Proof.Machine

/-! ### WellFormed: each check refuses the first number its field cannot hold (R51, R52) -/

theorem test_smoke_reg : Reg.check 16 = none ∧ Reg.check 15 = some 15 := by decide
theorem test_smoke_rows : RowCount.check 16 = none ∧ RowCount.check 0 = some 0 := by decide
theorem test_smoke_byte : Byte.check 256 = none ∧ Byte.check 255 = some 0xFF := by decide
theorem test_smoke_addr : Addr12.check 4096 = none ∧ Addr12.check 4095 = some 0xFFF := by decide

/-! ### Decoding: every constructor, the word bit by bit (95_test_vectors.md, 2.1) -/

theorem test_decode_family0 : decode 0b0000000011100000#16 = .instr .cls ∧
    decode 0b0000000011101110#16 = .instr .ret := by decide

theorem test_decode_jumps : decode 0b0001101010111100#16 = .instr (.jp 0xABC) ∧
    decode 0b0010101010111100#16 = .instr (.call 0xABC) ∧
    decode 0b1010101010111100#16 = .instr (.ldI 0xABC) ∧
    decode 0b1011101010111100#16 = .instr (.jpV0 0xABC) := by decide

theorem test_decode_immediates : decode 0b0011110001111111#16 = .instr (.seImm 0xC 0x7F) ∧
    decode 0b0100110001111111#16 = .instr (.sneImm 0xC 0x7F) ∧
    decode 0b0110110001111111#16 = .instr (.ldImm 0xC 0x7F) ∧
    decode 0b0111110001111111#16 = .instr (.addImm 0xC 0x7F) ∧
    decode 0b1100110001111111#16 = .instr (.rnd 0xC 0x7F) := by decide

theorem test_decode_register_skips : decode 0b0101101010110000#16 = .instr (.seReg 0xA 0xB) ∧
    decode 0b1001101010110000#16 = .instr (.sneReg 0xA 0xB) := by decide

theorem test_decode_family8 : decode 0b1000101010110000#16 = .instr (.ldReg 0xA 0xB) ∧
    decode 0b1000101010110001#16 = .instr (.orReg 0xA 0xB) ∧
    decode 0b1000101010110010#16 = .instr (.andReg 0xA 0xB) ∧
    decode 0b1000101010110011#16 = .instr (.xorReg 0xA 0xB) ∧
    decode 0b1000101010110100#16 = .instr (.addReg 0xA 0xB) ∧
    decode 0b1000101010110101#16 = .instr (.sub 0xA 0xB) ∧
    decode 0b1000101010110110#16 = .instr (.shr 0xA 0xB) ∧
    decode 0b1000101010110111#16 = .instr (.subn 0xA 0xB) ∧
    decode 0b1000101010111110#16 = .instr (.shl 0xA 0xB) := by decide

theorem test_decode_draw : decode 0b1101101010110111#16 = .instr (.drw 0xA 0xB 7) := by decide

theorem test_decode_familyE : decode 0b1110110010011110#16 = .instr (.skp 0xC) ∧
    decode 0b1110110010100001#16 = .instr (.sknp 0xC) := by decide

theorem test_decode_familyF : decode 0b1111110000000111#16 = .instr (.ldVxDt 0xC) ∧
    decode 0b1111110000001010#16 = .instr (.ldVxK 0xC) ∧
    decode 0b1111110000010101#16 = .instr (.ldDtVx 0xC) ∧
    decode 0b1111110000011000#16 = .instr (.ldStVx 0xC) ∧
    decode 0b1111110000011110#16 = .instr (.addI 0xC) ∧
    decode 0b1111110000101001#16 = .instr (.ldF 0xC) ∧
    decode 0b1111110000110011#16 = .instr (.ldB 0xC) ∧
    decode 0b1111110001010101#16 = .instr (.stRegs 0xC) ∧
    decode 0b1111110001100101#16 = .instr (.ldRegs 0xC) := by decide

/-- Words of no instruction, each family's among them. -/
def unknownWords : List Word := [0xFFFF, 0x0000, 0x0123, 0x00FE, 0x5121, 0x9125, 0x8128, 0x812F, 0xE19F,
  0xF100, 0xF075]

theorem test_decode_unknown : unknownWords.map decode = unknownWords.map .unknown := by decide +kernel

theorem test_decodeTableWord : decodeTableWord 16 0x1208 = some (.jp 0x208) ∧
    decodeTableWord 16 0xFFFF = none := by decide

theorem test_decodeBytes : decodeBytes [0x6A, 0x05, 0x99] = .decoded (.instr (.ldImm 0xA 0x05)) [0x99] ∧
    decodeBytes [0x6A] = .tooShort [0x6A] := by decide

theorem test_spelling : spelling (.drw 1 2 5) = "DRW V1, V2, 5" ∧ spelling (.jpV0 0x0A) = "JP V0, 00A" ∧
    spelling (.stRegs 0xC) = "LD [I], VC" ∧ mnemonicOf (.stRegs 0xC) = "ST_REGS" := by decide +kernel

/-! ### One step: the word stands at 0x200 of a state like reset -/

/-- A register file with the named values and zeros. -/
def regs (l : List (Reg × Byte)) : Vector Byte 16 :=
  l.foldl (fun v c => v.set c.1 c.2) (Vector.replicate 16 0)

/-- Reset but for some registers. -/
def withV (l : List (Reg × Byte)) : State := { State.reset with v := regs l }

/-- Reset but for some registers, I and memory. -/
def withVIM (l : List (Reg × Byte)) (i : Word) (m : Memory) : State :=
  { State.reset with v := regs l, i := i, mem := m }

/-- What `see` shows of the state one step leaves, the word `w` being fetched. -/
def after {α : Type} (s : State) (w : Nat) (see : State → α) : Option α :=
  match step (s.withFetchWord 16 w) with
  | .next t => some (see t)
  | .fault _ => none
  | .refused _ => none

/-- VF and one more register. -/
def flagAnd (r : Reg) (s : State) : Byte × Byte := (s.readV r, s.readV .vf)

/-- The fault record and PC. -/
def record (s : State) : BitVec 3 × Word × BitVec 17 × Word := (s.fault.code, s.faultPc, s.faultInfo, s.pc)

theorem test_jp : after State.reset 0x1208 (·.pc) = some 0x208 := by decide
theorem test_jpV0 : after (withV [(0, 0xFF)]) 0xBFFF (·.pc) = some 0x10FE := by decide
theorem test_call : after State.reset 0x2300 (fun t => (t.pc, t.stack)) = some (0x300, [0x202]) := by
  decide
theorem test_call_overflow : after { State.reset with stack := List.replicate 16 0x202 } 0x2200 record =
    some (2, 0x200, 0x02200, 0x200) := by decide
theorem test_ret : after { State.reset with stack := [0x204, 0x202] } 0x00EE
    (fun t => (t.pc, t.stack)) = some (0x202, [0x204]) := by decide
theorem test_ret_underflow : after State.reset 0x00EE record = some (1, 0x200, 0x000EE, 0x200) := by
  decide
theorem test_seImm : after (withV [(0xA, 5)]) 0x3A05 (·.pc) = some 0x204 ∧
    after (withV [(0xA, 6)]) 0x3A05 (·.pc) = some 0x202 := by decide
theorem test_sneImm : after (withV [(0xA, 5)]) 0x4A05 (·.pc) = some 0x202 ∧
    after (withV [(0xA, 6)]) 0x4A05 (·.pc) = some 0x204 := by decide
theorem test_seReg : after (withV [(1, 7), (2, 7)]) 0x5120 (·.pc) = some 0x204 ∧
    after (withV [(1, 7), (2, 8)]) 0x5120 (·.pc) = some 0x202 := by decide
theorem test_sneReg : after (withV [(1, 7), (2, 8)]) 0x9120 (·.pc) = some 0x204 ∧
    after (withV [(1, 7), (2, 7)]) 0x9120 (·.pc) = some 0x202 := by decide

theorem test_ldImm : after State.reset 0x6A05 (·.readV 0xA) = some 5 := by decide
theorem test_addImm : after (withV [(0xA, 0xFE), (0xF, 0x55)]) 0x7A05 (flagAnd 0xA) =
    some (3, 0x55) := by decide
theorem test_ldReg : after (withV [(2, 0x3C)]) 0x8120 (·.readV 1) = some 0x3C := by decide
theorem test_orReg : after (withV [(1, 0x0F), (2, 0xF0), (0xF, 0x77)]) 0x8121 (flagAnd 1) =
    some (0xFF, 0x77) := by decide
theorem test_andReg : after (withV [(1, 0x3C), (2, 0x0F), (0xF, 0x77)]) 0x8122 (flagAnd 1) =
    some (0x0C, 0x77) := by decide
theorem test_xorReg : after (withV [(1, 0xFF), (2, 0x0F), (0xF, 0x77)]) 0x8123 (flagAnd 1) =
    some (0xF0, 0x77) := by decide
theorem test_addReg : after (withV [(1, 0xC8), (2, 0x64)]) 0x8124 (flagAnd 1) =
    some (0x2C, 1) := by decide
theorem test_addReg_vf : after (withV [(1, 0x20), (0xF, 0x10)]) 0x8F14 (·.readV .vf) = some 0 := by
  decide
theorem test_sub : after (withV [(1, 0x10), (2, 0x20)]) 0x8125 (flagAnd 1) = some (0xF0, 0) := by decide
theorem test_sub_equal : after (withV [(1, 0x33), (2, 0x33)]) 0x8125 (flagAnd 1) = some (0, 1) := by
  decide
theorem test_subn : after (withV [(1, 0x10), (2, 0x20)]) 0x8127 (flagAnd 1) = some (0x10, 1) := by decide
theorem test_subn_vf : after (withV [(1, 3), (0xF, 5)]) 0x8F17 (·.readV .vf) = some 0 := by decide
theorem test_shr : after (withV [(1, 4), (2, 0xFF), (0xF, 1)]) 0x8126 (flagAnd 1) = some (2, 0) := by
  decide
theorem test_shr_vf : after (withV [(0xF, 7)]) 0x8F06 (·.readV .vf) = some 3 := by decide
theorem test_shl : after (withV [(1, 0x81)]) 0x810E (flagAnd 1) = some (2, 1) := by decide
theorem test_shl_vf : after (withV [(0xF, 0x41)]) 0x8F0E (·.readV .vf) = some 0x82 := by decide

theorem test_ldI : after State.reset 0xA2F0 (·.i) = some 0x2F0 := by decide
theorem test_addI : after (withVIM [(1, 1)] 0xFFFF []) 0xF11E (·.i) = some 0 := by decide
theorem test_ldF : after (withV [(1, 0xFF)]) 0xF129 (·.i) = some 0x54B := by decide
theorem test_ldB : after (withVIM [(1, 0x9C)] 0x300 []) 0xF133 (fun t => memReadBytes t.mem 0x2FF 5) =
    some [0, 1, 5, 6, 0] := by decide
theorem test_ldB_fault : after (withVIM [(1, 0xFF)] 0xFFE []) 0xF133
    (fun t => (record t, memReadBytes t.mem 0xFFE 2)) =
    some ((4, 0x200, 0x01000, 0x200), [0, 0]) := by decide
theorem test_stRegs : after (withVIM [(0, 0x11), (1, 0x22), (2, 0x33), (3, 0x44)] 0x400 []) 0xF255
    (fun t => (t.i, memReadBytes t.mem 0x400 4)) = some (0x400, [0x11, 0x22, 0x33, 0]) := by decide
theorem test_stRegs_fault : after (withVIM [] 0xFFFF []) 0xF155 (·.faultInfo) = some 0x0FFFF := by decide
theorem test_ldRegs : after (withVIM [(2, 0x99)] 0x400 [(0x400, 0xAA), (0x401, 0xBB), (0x402, 0xCC)])
    0xF165 (fun t => (t.readV 0, t.readV 1, t.readV 2, t.i)) = some (0xAA, 0xBB, 0x99, 0x400) := by decide
theorem test_ldRegs_fault : after (withVIM [] 0xFFF [(0xFFF, 0x5A)]) 0xF165
    (fun t => (record t, t.readV 0)) = some ((4, 0x200, 0x01000, 0x200), 0) := by decide

/-- A framebuffer with one cell set. -/
def oneCell (x y : Nat) : Framebuffer := fbSet blankFramebuffer x y true

/-- Some columns of one row. -/
def columns (y : Nat) (xs : List Nat) (s : State) : List Bool := xs.map (fun x => fbGet s.fb x y)

theorem test_cls : after { State.reset with fb := oneCell 1 0 } 0x00E0
    (fun t => (columns 0 [0, 1, 2] t, t.dirty)) = some ([false, false, false], true) := by decide +kernel
/-- DRW-K: the clipped columns cannot collide. -/
theorem test_drw_clip : after { withVIM [(1, 0x3C)] 0x300 [(0x300, 0xFF)] with fb := oneCell 0 0 } 0xD121
    (fun t => (columns 0 [0, 1, 59, 60, 63] t, t.readV .vf, t.dirty)) =
    some ([true, false, false, true, true], 0, true) := by decide +kernel
/-- DRW-G: a set cell turned off. -/
theorem test_drw_collision : after { withVIM [] 0x300 [(0x300, 0xC0)] with fb := oneCell 1 0 } 0xD121
    (fun t => (columns 0 [0, 1, 2] t, t.readV .vf)) = some ([true, false, false], 1) := by decide +kernel

/-- Reset with a cycle pending, its KEYS and RND given. -/
def driven (l : List (Reg × Byte)) (keys : BitVec 16) (rnd : Byte) : State :=
  { withV l with pending := [.cycle keys rnd] }

theorem test_rnd : after (driven [] 0 0xA7) 0xC10F (·.readV 1) = some 7 := by decide
theorem test_skp : after (driven [(1, 5)] 0x0020 0) 0xE19E (·.pc) = some 0x204 ∧
    after (driven [(1, 0x15)] 0xFFFF 0) 0xE19E (·.pc) = some 0x202 := by decide
theorem test_sknp : after (driven [(1, 5)] 0x0020 0) 0xE1A1 (·.pc) = some 0x202 ∧
    after (driven [(1, 0x15)] 0xFFFF 0) 0xE1A1 (·.pc) = some 0x204 := by decide
theorem test_ldVxK : after (driven [(1, 7)] 0x0080 0) 0xF10A (fun t => (t.pc, t.readV 1)) =
    some (0x202, 7) := by decide
theorem test_ldVxK_waits : after (driven [(1, 7)] 0xFF7F 0) 0xF10A (·.pc) = some 0x200 := by decide
theorem test_ldVxDt : after { State.reset with dt := 0x2A } 0xF107 (·.readV 1) = some 0x2A := by decide
theorem test_ldDtVx : after (withV [(1, 0x3C)]) 0xF115 (fun t => (t.dt, t.st)) = some (0x3C, 0) := by
  decide
theorem test_ldStVx : after (withV [(1, 5)]) 0xF118 (fun t => (t.dt, t.st)) = some (0, 5) := by decide

/-! ### The cycle and the surroundings -/

theorem test_unknown : after State.reset 0xFFFF (fun t => (t.pc, t.unk, t.unkWord)) =
    some (0x202, true, 0xFFFF) := by decide

/-- The state one step leaves, nothing being placed. -/
def next {α : Type} (s : State) (see : State → α) : Option α :=
  match step s with
  | .next t => some (see t)
  | .fault _ => none
  | .refused _ => none

/-- R33, R34: the last byte; the first above it; an address that is not reduced. -/
theorem test_bounds : firstBadAddr 0xFFF 1 = none ∧ firstBadAddr 0xFFF 2 = some 0x1000 ∧
    firstBadAddr 0xFFFF 16 = some 0xFFFF := by decide
theorem test_fetch_fault : next { State.reset with pc := 0xFFF } record =
    some (3, 0xFFF, 0x01000, 0xFFF) := by decide
theorem test_fetch_odd : next { State.reset with pc := 0x201, mem := [(0x201, 0x6A), (0x202, 5)] }
    (fun t => (t.readV 0xA, t.pc)) = some (5, 0x203) := by decide
theorem test_tick : next { State.reset with dt := 2, st := 0, pending := [.tick] }
    (fun t => (t.dt, t.st)) = some (1, 0) := by decide
theorem test_tick_halted : next { State.reset with fault := .stackUnderflow, dt := 5, pending := [.tick] }
    (·.dt) = some 5 := by decide
theorem test_load : next { State.reset with pending := [.load 0x200 [0x12, 0x08]] }
    (fun t => (t.mem, t.pc)) = some ([(0x200, 0x12), (0x201, 0x08)], 0x200) := by decide
/-- The conventional font: eighty bytes, the glyph of A at 0x82 (R113, R165). -/
theorem test_load_font : next { State.reset with pending := [.load Config.fontBase Config.conventionalFont] }
    (fun t => memReadBytes t.mem 0x82 5) = some [0xF0, 0x90, 0xF0, 0x90, 0x90] ∧
    Config.conventionalFont.length = 80 := by decide +kernel
theorem test_load_refused : next { State.reset with pending := [.load 0xFFF [0xAA, 0xBB]] }
    (fun t => (t.mem, t.loadReply)) = some ([], some .loadError) := by decide
/-- A halted core about to be reset. -/
def haltedThenReset : State :=
  { State.reset with fault := .memOutOfRange, pc := 0x300, phase := .running, pending := [.reset] }

theorem test_reset : next haltedThenReset (fun t => (record t, t.phase)) = some ((0, 0, 0, 0x200), .loading) := by decide
theorem test_halted_stops : (match step { State.reset with fault := .stackUnderflow } with
    | .fault (.halted c) => some c
    | .next _ => none
    | .refused _ => none) = some .stackUnderflow := by decide

/-! ### Witnesses: for each statement with hypotheses, states and operands that meet them together, at
the boundary of each clause -/

/-- A one-row sprite in the last byte of memory, one cell of the screen set. -/
def lastByteSprite (b : Byte) : State :=
  { withVIM [(1, 0), (2, 0)] 0xFFF [(0xFFF, b)] with fb := oneCell 0 0 }

/-- DrwXorsTheSpriteAndReportsCollision, drawn: the last byte is inside memory, and the one set cell
collides. -/
theorem witness_drw_inside : (∀ r < drawnRows (lastByteSprite 0x80) 2 1, (lastByteSprite 0x80).i.toNat + r ≤ 0xFFF) ∧
    fbGet (lastByteSprite 0x80).fb 0 0 = true ∧ spriteBit (lastByteSprite 0x80) 1 2 1 0 0 = true := by
  decide +kernel

/-- A one-row sprite on a blank screen. -/
def blankScreenSprite (b : Byte) : State := withVIM [] 0xFFF [(0xFFF, b)]

/-- DrwXorsTheSpriteAndReportsCollision, drawn without a collision. -/
theorem witness_drw_no_collision :
    (∀ r < drawnRows (blankScreenSprite 0x80) 2 1, (blankScreenSprite 0x80).i.toNat + r ≤ 0xFFF) ∧
    ∀ cx < 64, ∀ cy < 32, fbGet (blankScreenSprite 0x80).fb cx cy = true →
      spriteBit (blankScreenSprite 0x80) 1 2 1 cx cy = false :=
  ⟨by decide, fun cx _ cy _ h => absurd (h.symm.trans (fbGet_blank cx cy)) (by decide)⟩

/-- DrwXorsTheSpriteAndReportsCollision, faulting: the second row is the first byte above memory; and a
sprite wholly above it. -/
theorem witness_drw_outside : (0 < drawnRows (lastByteSprite 0x80) 2 2 ∧
      0xFFF < (lastByteSprite 0x80).i.toNat + (drawnRows (lastByteSprite 0x80) 2 2 - 1)) ∧
    (0 < drawnRows (withVIM [] 0x1000 []) 2 1 ∧
      0xFFF < (withVIM [] 0x1000 []).i.toNat + (drawnRows (withVIM [] 0x1000 []) 2 1 - 1)) := by decide

/-- What the first draw of `witness_drawTwice_sets` leaves. -/
def drawnOnce (s : State) : State := showDrawing (drawSprite s 1 2 1) s.beginCycle

/-- DrawingTwiceRestoresTheScreen and DrawingStaysInItsRectangle: a first draw that sets a cell. -/
theorem witness_drawTwice_sets : (1 : Reg) ≠ Reg.vf ∧ (2 : Reg) ≠ Reg.vf ∧
    (∀ r < drawnRows (blankScreenSprite 0x80) 2 1, (blankScreenSprite 0x80).i.toNat + r ≤ 0xFFF) ∧
    exec (.drw 1 2 1) (blankScreenSprite 0x80) = .next (drawnOnce (blankScreenSprite 0x80)) ∧
    fbGet (blankScreenSprite 0x80).fb 0 0 = false ∧
    fbGet (drawnOnce (blankScreenSprite 0x80)).fb 0 0 = true :=
  ⟨by decide, by decide, by decide, rfl, by decide +kernel, by decide +kernel⟩

/-- DrawingTwiceRestoresTheScreen, a first draw that sets no cell: no row. -/
theorem witness_drawTwice_sets_none : (1 : Reg) ≠ Reg.vf ∧ (2 : Reg) ≠ Reg.vf ∧
    (∀ r < drawnRows State.reset 2 0, State.reset.i.toNat + r ≤ 0xFFF) ∧
    ∃ t, exec (.drw 1 2 0) State.reset = .next t ∧
      ∀ cx < 64, ∀ cy < 32, fbGet t.fb cx cy = true → fbGet State.reset.fb cx cy = true :=
  ⟨by decide, by decide, by decide, _, rfl, fun _ _ _ _ h => h⟩

/-- RetPopsOrUnderflows: two entries; none. -/
theorem witness_ret : ({ State.reset with stack := [0x204, 0x202] } : State).stack = [0x204] ++ [0x202] ∧
    State.reset.stack = [] := by decide

/-- A core with so many return addresses on its stack. -/
def stacked (n : Nat) (d : Option Nat) : State :=
  { State.reset with stack := List.replicate n 0x202, params := ⟨d, 5⟩ }

/-- CallPushesOrOverflows and CallThenReturnComesBack: fifteen of sixteen entries, an unbounded stack;
and sixteen of sixteen. -/
theorem witness_call : (∀ d, (stacked 15 (some 16)).params.stackDepth = some d → (stacked 15 (some 16)).stack.length < d) ∧
    (∀ d, (stacked 16 none).params.stackDepth = some d → (stacked 16 none).stack.length < d) ∧
    (stacked 16 (some 16)).params.stackDepth = some (stacked 16 (some 16)).stack.length :=
  ⟨fun d h => by cases h; decide, fun d h => (by cases h), rfl⟩

/-- RegisterSkips: the least and the greatest n that is no instruction. -/
theorem witness_registerSkips : (1 : BitVec 4) ≠ 0 ∧ (15 : BitVec 4) ≠ 0 := by decide

/-- AddImmWrapsWithoutFlag, LogicWritesNoFlag, AddRegSumAndCarry, SubtractsAndNotBorrow,
ShiftsAndShiftedOutBit, RndMasksTheRandomByte, VfIsWrittenAsAFullByte: a destination that is not VF and
a third register. -/
theorem witness_registers : (14 : Reg) ≠ Reg.vf ∧ (0 : Reg) ≠ 14 ∧ (0 : Reg) ≠ Reg.vf := by decide

/-- LdBStoresDecimalDigits: the last I whose three bytes are inside memory, and the first whose are not. -/
theorem witness_ldB : (withVIM [] 0xFFD []).i.toNat ≤ 0xFFD ∧ 0xFFD < (withVIM [] 0xFFE []).i.toNat := by
  decide

/-- StRegsStoresTheBlock, LdRegsLoadsTheBlock: the last block inside memory, with one and with sixteen
registers; the first that is not; and the greatest I and x. -/
theorem witness_block : ((withVIM [] 0xFFF []).i.toNat + (0 : Reg).val ≤ 0xFFF) ∧
    ((withVIM [] 0xFF0 []).i.toNat + (15 : Reg).val ≤ 0xFFF) ∧
    (0xFFF < (withVIM [] 0xFFF []).i.toNat + (1 : Reg).val) ∧
    0xFFF < (withVIM [] 0xFFFF []).i.toNat + (15 : Reg).val := by decide

/-- StoreThenLoadRestoresRegisters: the store of the last byte, then the load in the state it leaves. -/
theorem witness_storeThenLoad : (withVIM [(0, 7)] 0xFFF []).i.toNat + (0 : Reg).val ≤ 0xFFF ∧
    ∃ t, exec (.stRegs 0) (withVIM [(0, 7)] 0xFFF []) = .next t ∧
      ∃ t' : State, t'.mem = t.mem ∧ t'.i = (withVIM [(0, 7)] 0xFFF []).i :=
  ⟨by decide, _, rfl, _, rfl, rfl⟩

/-- KeySkips and KeyWaitReexecutesUntilPressed: the last key down; the first value that is no key, with
every key down; a key that is up. -/
theorem witness_keys :
    (((withV [(1, 0xF)]).readV 1).toNat ≤ 0xF ∧
      (0x8000#16).getLsbD ((withV [(1, 0xF)]).readV 1).toNat = true) ∧
    (0xF < ((withV [(1, 0x10)]).readV 1).toNat) ∧
    (0x7FFF#16).getLsbD ((withV [(1, 0xF)]).readV 1).toNat = false := by decide

/-- SoundTimerIsSetAndNeverRead, EachRegisterHasItsWriters, ReportsAreOfThisCycle,
InputsAreReadOnlyByTheirInstructions, VfIsWrittenAsAFullByte: an instruction that is none of those
excepted. -/
theorem witness_jp : (∀ y, Instr.jp 0 ≠ .ldStVx y) ∧ (∀ y, Instr.jp 0 ≠ .ldDtVx y) ∧
    (∀ n, Instr.jp 0 ≠ .ldI n) ∧ (∀ x, Instr.jp 0 ≠ .addI x ∧ Instr.jp 0 ≠ .ldF x) ∧
    (Instr.jp 0 ≠ .ret ∧ ∀ n, Instr.jp 0 ≠ .call n) ∧
    (Instr.jp 0 ≠ .cls ∧ ∀ x y n, Instr.jp 0 ≠ .drw x y n) ∧
    (∀ x, Instr.jp 0 ≠ .skp x ∧ Instr.jp 0 ≠ .sknp x ∧ Instr.jp 0 ≠ .ldVxK x) ∧
    (∀ x kk, Instr.jp 0 ≠ .rnd x kk) ∧
    (∀ a b, Instr.jp 0 ≠ .addReg a b ∧ Instr.jp 0 ≠ .sub a b ∧ Instr.jp 0 ≠ .subn a b ∧
      Instr.jp 0 ≠ .shr a b ∧ Instr.jp 0 ≠ .shl a b) ∧
    (∀ b kk, Instr.jp 0 ≠ .ldImm .vf kk ∧ Instr.jp 0 ≠ .addImm .vf kk ∧ Instr.jp 0 ≠ .rnd .vf kk ∧
      Instr.jp 0 ≠ .ldReg .vf b ∧ Instr.jp 0 ≠ .orReg .vf b ∧ Instr.jp 0 ≠ .andReg .vf b ∧
      Instr.jp 0 ≠ .xorReg .vf b ∧ Instr.jp 0 ≠ .ldVxDt .vf ∧ Instr.jp 0 ≠ .ldRegs .vf) := by simp

/-- VfIsWrittenAsAFullByte: a DRW that completes. -/
theorem witness_vf_drw : ∃ t, exec (.drw 1 2 0) State.reset = .next t ∧ t.pc = State.reset.pc + 2 :=
  ⟨_, rfl, rfl⟩

/-- The last fetchable address with a word there, and no action pending. -/
def atLastWord (hi lo : Byte) : State :=
  { State.reset with pc := 0xFFE, mem := [(0xFFE, hi), (0xFFF, lo)] }

/-- BeginsCycle, in a cycle for which the surroundings supply nothing. -/
theorem begins_undriven (s : State) (h : s.pending = []) : BeginsCycle s s.latchUndriven := .inr ⟨h, rfl⟩

/-- BeginsCycle, in a cycle the host issues. -/
theorem begins_driven (s : State) (k : BitVec 16) (r : Byte) (rest : List HostAction)
    (h : s.pending = .cycle k r :: rest) : BeginsCycle s ((s.setPending rest).latch k r) :=
  .inl ⟨k, r, rest, h, rfl⟩

/-- StepRunsTheDecodedInstruction: the last two bytes of memory, in an undriven and in an issued cycle. -/
theorem witness_step : BeginsCycle (atLastWord 0x12 0x08) (atLastWord 0x12 0x08).latchUndriven ∧
    (atLastWord 0x12 0x08).fault = .none ∧ (atLastWord 0x12 0x08).pc.toNat ≤ 0xFFE ∧
    decode (memRead (atLastWord 0x12 0x08).mem (atLastWord 0x12 0x08).pc.toNat ++
      memRead (atLastWord 0x12 0x08).mem ((atLastWord 0x12 0x08).pc.toNat + 1)) = .instr (.jp 0x208) ∧
    BeginsCycle (driven [] 0x80 7) ((State.reset.setPending []).latch 0x80 7) :=
  ⟨begins_undriven _ rfl, rfl, by decide, by decide, begins_driven _ _ _ _ rfl⟩

/-- UnknownWordIsAnInertStep: the same place, the word FFFF. -/
theorem witness_unknown : BeginsCycle (atLastWord 0xFF 0xFF) (atLastWord 0xFF 0xFF).latchUndriven ∧
    (atLastWord 0xFF 0xFF).fault = .none ∧ (atLastWord 0xFF 0xFF).pc.toNat ≤ 0xFFE ∧
    (0xFFFF : Word) = memRead (atLastWord 0xFF 0xFF).mem (atLastWord 0xFF 0xFF).pc.toNat ++
      memRead (atLastWord 0xFF 0xFF).mem ((atLastWord 0xFF 0xFF).pc.toNat + 1) ∧
    ∀ i, decode 0xFFFF ≠ .instr i :=
  ⟨begins_undriven _ rfl, rfl, by decide, by decide, fun i h => by
    rw [show decode 0xFFFF = .unknown 0xFFFF by decide] at h; cases h⟩

/-- FetchAboveMemoryFaults: the first PC that faults, and the next, where the info differs in form. -/
theorem witness_fetch : (BeginsCycle { State.reset with pc := 0xFFF } ({ State.reset with pc := 0xFFF } : State).latchUndriven ∧
      ({ State.reset with pc := 0xFFF } : State).fault = .none ∧ 0xFFE < (0xFFF : Word).toNat) ∧
    BeginsCycle { State.reset with pc := 0x1000 } ({ State.reset with pc := 0x1000 } : State).latchUndriven ∧
      0xFFE < (0x1000 : Word).toNat :=
  ⟨⟨begins_undriven _ rfl, rfl, by decide⟩, begins_undriven _ rfl, by decide⟩

/-- FaultsArePreciseAndOfOneKind, PcAfterEachInstruction, ReportsAreOfThisCycle,
ReportsNeverAffectExecution: a running core, and an instruction that leaves it running. -/
theorem witness_running : State.reset.fault = .none ∧
    ∃ t, exec .cls State.reset = .next t ∧ t.fault = .none := ⟨rfl, _, rfl, rfl⟩

/-- A halted core with some action pending. -/
def haltedWith (l : List HostAction) : State :=
  { State.reset with fault := .stackUnderflow, faultPc := 0x200, faultInfo := 0x00EE, pending := l }

/-- OnlyAHaltedCoreStops: a halted core asked for a cycle; one asked for something else; a running one. -/
theorem witness_stops : ((∃ s, BeginsCycle (haltedWith []) s) ∧ (haltedWith []).fault ≠ .none) ∧
    (∀ s, ¬ BeginsCycle (haltedWith [.tick]) s) ∧ State.reset.fault = .none :=
  ⟨⟨⟨_, begins_undriven _ rfl⟩, by decide⟩, (fun s h => by
    rcases h with ⟨k, r, rest, h, -⟩ | ⟨h, -⟩ <;> cases h), rfl⟩

/-- HaltedCoreAcceptsNoTickAndNoLoad. -/
theorem witness_halted : ((haltedWith [.tick]).fault ≠ .none ∧ (haltedWith [.tick]).pending = .tick :: []) ∧
    (haltedWith [.load 0x200 [1]]).fault ≠ .none ∧
      (haltedWith [.load 0x200 [1]]).pending = .load 0x200 [1] :: [] := by decide

/-- TicksCountDownToZero: three ticks with more to follow. -/
theorem witness_ticks : ({ State.reset with pending := [.tick, .tick, .tick, .reset] } : State).fault = .none ∧
    ({ State.reset with pending := [.tick, .tick, .tick, .reset] } : State).pending =
      List.replicate 3 HostAction.tick ++ [.reset] := by decide

/-- A step of a running core that changes only what the surroundings do next. -/
theorem witness_timers : ∃ t, step { State.reset with pending := [.load 0 []] } = .next t := ⟨_, rfl⟩

/-- ResetActionClearsTheCore: a halted core. -/
theorem witness_reset : (haltedWith [.reset]).pending = .reset :: [] := rfl

/-- LoadPlacesItsBytes: the last load that fits, the first that does not, and one after the first cycle. -/
theorem witness_load :
    (({ State.reset with pending := [.load 4095 [0xAA]] } : State).fault = .none ∧
      ({ State.reset with pending := [.load 4095 [0xAA]] } : State).phase = .loading ∧
      4095 + [(0xAA : Byte)].length ≤ 4096) ∧
    4096 < 4095 + [(0xAA : Byte), 0xBB].length ∧
    ({ State.reset with phase := .running, pending := [.load 4095 [0xAA]] } : State).phase = .running := by
  decide

/-- OnlyStoresChangeMemory and OnlyDestinationsChange: an address, a register outside the write. -/
theorem witness_frames : (0x403 < (withVIM [] 0x400 []).i.toNat ∨
      (withVIM [] 0x400 []).i.toNat + bytesStored (.ldB 1) ≤ 0x403) ∧
    writesReg (.ldRegs 2) 3 = false := by decide

/-- NoInputIsRemembered. -/
theorem witness_noInput : BeginsCycle (driven [] 0x80 7) ((State.reset.setPending []).latch 0x80 7) :=
  begins_driven _ _ _ _ rfl

/-- StoredBytesAreFetched: program P5 (95_test_vectors.md), and its highest place. -/
theorem witness_storedBytes :
    ((0x208 : Word).toNat + (1 : Reg).val ≤ 0xFFF ∧ (0 : Reg).val + 1 ≤ (1 : Reg).val ∧
      ((0x206 : Word) + 2).toNat = (0x208 : Word).toNat + (0 : Reg).val) ∧
    ((0xFF0 : Word).toNat + (15 : Reg).val ≤ 0xFFF ∧ (14 : Reg).val + 1 ≤ (15 : Reg).val ∧
      ((0xFFC : Word) + 2).toNat = (0xFF0 : Word).toNat + (14 : Reg).val) := by decide

/-- EveryStepKeepsTheInvariant: a running core inside a subroutine, whose next step answers a state. -/
def inSubroutine : State :=
  { State.reset with phase := .running, pc := 0x300, stack := [0x202],
                     mem := [(0x200, 0x23), (0x300, 0x12)], pending := [.tick] }

theorem witness_inv : Inv inSubroutine ∧ ∃ t, step inSubroutine = .next t :=
  ⟨{ memory := by simp [inSubroutine, Memory.wf, Config.memSize]
     depth := fun d h => by cases h; decide
     returns := by simp [inSubroutine]
     pc := by decide
     precise := by decide
     explained := ⟨rfl, rfl⟩
     loading := fun h => by cases h
     reports := by decide
     unknown := fun h => by cases h }, _, rfl⟩

/-- EveryReachableStateMeetsTheInvariant: two actions from reset, under an unbounded stack. -/
theorem witness_reachable : ∃ t, core.run 2
    { State.reset with pending := [.load 0x200 [0x12, 0x00], .cycle 0 0], params := ⟨none, 5⟩ } = .next t :=
  ⟨_, rfl⟩

end Sys2Proof.Tests
end

/-! ## What one instruction leaves: its fault, or the state it completes in

`exec_eq` splits every instruction into the fault it raises, if any, and the state it leaves when it
raises none.  Each fact about that state is then one lemma over the instructions. -/

namespace Sys2Proof.Machine

/-- The fault of an access to `count` bytes from I up (R142). -/
def accessFault (count : Nat) (s : State) : Option (FaultCause × BitVec 17) :=
  (firstBadAddr s.i.toNat count).map fun a => (.memOutOfRange, BitVec.ofNat 17 a)

/-- The fault instruction `i` raises in `s`, with its info (R140). -/
def faultRaised (i : Instr) (s : State) : Option (FaultCause × BitVec 17) :=
  match i with
  | .ret => if s.stack = [] then some (.stackUnderflow, wordInfo (encode .ret)) else none
  | .call nnn => if s.stackFull then some (.stackOverflow, wordInfo (encode (.call nnn))) else none
  | .drw _ y n => accessFault (spriteRows s y n) s
  | .ldB _ => accessFault 3 s
  | .stRegs x | .ldRegs x => accessFault (x.val + 1) s
  | _ => none

/-- Where a skip goes on (R80). -/
def skipTarget (c : Bool) (s : State) : Word := if c then s.pc + 2 + 2 else s.pc + 2

/-- The state `i` leaves where it raises no fault.  The instructions that branch are listed; of the
others `exec` itself says what they leave. -/
def completed (i : Instr) (s : State) : State :=
  match i with
  | .ret => s.beginCycle.dropTop.setPc (s.stack.getLast?.getD 0)
  | .call nnn => (s.beginCycle.push (s.pc + 2)).setPc (zext16 nnn)
  | .seImm x kk => s.beginCycle.setPc (skipTarget (s.readV x == kk) s)
  | .sneImm x kk => s.beginCycle.setPc (skipTarget (s.readV x != kk) s)
  | .seReg x y => s.beginCycle.setPc (skipTarget (s.readV x == s.readV y) s)
  | .sneReg x y => s.beginCycle.setPc (skipTarget (s.readV x != s.readV y) s)
  | .skp x => s.beginCycle.setPc (skipTarget (pressed s.keys (s.readV x)) s)
  | .sknp x => s.beginCycle.setPc (skipTarget (!pressed s.keys (s.readV x)) s)
  | .ldVxK x => s.beginCycle.setPc (if pressed s.keys (s.readV x) then s.pc + 2 else s.pc + 2 - 2)
  | .drw x y n => showDrawing (drawSprite s x y n) s.beginCycle
  | .ldB x => s.beginCycle.setMem (memWriteBytes s.mem s.i.toNat (bcdDigits (s.readV x)))
  | .stRegs x => s.beginCycle.setMem (memWriteBytes s.mem s.i.toNat (regsUpTo s x))
  | .ldRegs x => s.beginCycle.setRegs (regsLoaded s x)
  | i => match exec i s with
    | .next t => t
    | .fault _ | .refused _ => s

/-- The state left when the fault `f` is raised, or `ok` when none is. -/
def faultOr (s ok : State) (f : Option (FaultCause × BitVec 17)) : State :=
  f.elim ok fun f => s.recordFault f.1 f.2

theorem accessAtI_eq (count : Nat) (s ok : State) :
    accessAtI count s ok = .next (faultOr s ok (accessFault count s)) := by
  unfold accessAtI accessFault
  cases firstBadAddr s.i.toNat count <;> rfl

/-- Every instruction raises its fault or completes (R143). -/
theorem exec_eq (i : Instr) (s : State) :
    exec i s = .next (faultOr s (completed i s) (faultRaised i s)) := by
  cases i with
  | ret =>
    simp only [exec, execRet, faultRaised, completed]
    cases hs : s.stack.getLast? with
    | none => rw [if_pos (List.getLast?_eq_none_iff.1 hs)]; rfl
    | some w => rw [if_neg (by rintro h; simp [h] at hs)]; rfl
  | call nnn =>
    simp only [exec, execCall, faultRaised]
    split <;> rfl
  | seImm | sneImm | seReg | sneReg | skp | sknp => exact congrArg Host.Outcome.next (skipIf_eq _ _)
  | ldVxK x =>
    simp only [exec, execLdVxK, completed]
    split <;> rfl
  | drw | ldB | stRegs | ldRegs => exact accessAtI_eq _ _ _
  | _ => rfl

theorem exec_completes {i : Instr} {s : State} (h : faultRaised i s = none) :
    exec i s = .next (completed i s) := by
  rw [exec_eq, h]; rfl

theorem exec_faults {i : Instr} {s : State} {c : FaultCause} {n : BitVec 17}
    (h : faultRaised i s = some (c, n)) : exec i s = .next (s.recordFault c n) := by
  rw [exec_eq, h]; rfl

/-- What is true of the state a fault leaves and of the one completion leaves is true of the answer. -/
theorem exec_of_both {i : Instr} {s : State} {P : State → Prop} (hc : P (completed i s))
    (hf : ∀ c n, P (s.recordFault c n)) : ∃ t, exec i s = .next t ∧ P t := by
  refine ⟨_, exec_eq i s, ?_⟩
  cases faultRaised i s with
  | none => exact hc
  | some f => exact hf f.1 f.2

theorem accessFault_eq_some {count : Nat} {s : State} {c : FaultCause} {n : BitVec 17}
    (h : accessFault count s = some (c, n)) :
    c = .memOutOfRange ∧ n = BitVec.ofNat 17 (max s.i.toNat Config.memSize) ∧
      Config.memSize < s.i.toNat + count := by
  obtain ⟨a, ha, he⟩ := Option.map_eq_some_iff.1 h
  obtain ⟨-, hlt, rfl⟩ := firstBadAddr_eq_some ha
  cases he
  exact ⟨rfl, rfl, hlt⟩

theorem accessFault_eq_none {count : Nat} {s : State} :
    accessFault count s = none ↔ ∀ k < count, s.i.toNat + k < Config.memSize := by
  rw [accessFault, Option.map_eq_none_iff, firstBadAddr_eq_none]

/-- The record a raised fault writes explains the state it is raised in (R140, R141, R149, R142). -/
theorem faultRaised_explained {i : Instr} {s : State} {c : FaultCause} {n : BitVec 17}
    (h : faultRaised i s = some (c, n)) : c ≠ .none ∧ faultExplained (s.recordFault c n) := by
  have haccess : ∀ count ≤ 16, accessFault count s = some (c, n) →
      c ≠ .none ∧ faultExplained (s.recordFault c n) := fun count hle ha => by
    obtain ⟨rfl, rfl, hlt⟩ := accessFault_eq_some ha
    rw [memSize_eq] at hlt
    exact ⟨by decide, show 0xFFF < s.i.toNat + 15 by omega, memFault_info_toNat s.i⟩
  cases i with
  | ret =>
    obtain ⟨hs, he⟩ := Option.ite_none_right_eq_some.1 h
    cases he
    exact ⟨by decide, hs, rfl⟩
  | call nnn =>
    obtain ⟨hs, he⟩ := Option.ite_none_right_eq_some.1 h
    cases he
    exact ⟨by decide, hs, nnn, rfl⟩
  | drw x y m => exact haccess _ (by rw [spriteRows]; omega) h
  | ldB x => exact haccess 3 (by omega) h
  | stRegs x | ldRegs x => exact haccess (x.val + 1) (by omega) h
  | _ => cases h

/-! ### The state after an instruction that completes, field by field -/

section
variable (i : Instr) (s : State)

@[simp] theorem completed_phase : (completed i s).phase = .running := by cases i <;> rfl
@[simp] theorem completed_unk : (completed i s).unk = false := by cases i <;> rfl
@[simp] theorem completed_unkWord : (completed i s).unkWord = s.unkWord := by cases i <;> rfl
@[simp] theorem completed_fault : (completed i s).fault = s.fault := by cases i <;> rfl
@[simp] theorem completed_faultPc : (completed i s).faultPc = s.faultPc := by cases i <;> rfl
@[simp] theorem completed_faultInfo : (completed i s).faultInfo = s.faultInfo := by cases i <;> rfl
@[simp] theorem completed_params : (completed i s).params = s.params := by cases i <;> rfl

end

section
variable {i : Instr} {s : State}

theorem completed_i (hn : ∀ n, i ≠ .ldI n) (hx : ∀ x, i ≠ .addI x ∧ i ≠ .ldF x) :
    (completed i s).i = s.i := by
  cases i with
  | ldI n => exact absurd rfl (hn n)
  | addI x => exact absurd rfl (hx x).1
  | ldF x => exact absurd rfl (hx x).2
  | _ => rfl

theorem completed_stack (hr : i ≠ .ret) (hc : ∀ n, i ≠ .call n) : (completed i s).stack = s.stack := by
  cases i with
  | ret => exact absurd rfl hr
  | call n => exact absurd rfl (hc n)
  | _ => rfl

theorem completed_fb (hc : i ≠ .cls) (hd : ∀ x y n, i ≠ .drw x y n) : (completed i s).fb = s.fb := by
  cases i with
  | cls => exact absurd rfl hc
  | drw x y n => exact absurd rfl (hd x y n)
  | _ => rfl

theorem completed_dirty (hc : i ≠ .cls) (hd : ∀ x y n, i ≠ .drw x y n) :
    (completed i s).dirty = false := by
  cases i with
  | cls => exact absurd rfl hc
  | drw x y n => exact absurd rfl (hd x y n)
  | _ => rfl

theorem completed_dt (h : ∀ x, i ≠ .ldDtVx x) : (completed i s).dt = s.dt := by
  cases i with
  | ldDtVx x => exact absurd rfl (h x)
  | _ => rfl

theorem completed_st (h : ∀ x, i ≠ .ldStVx x) : (completed i s).st = s.st := by
  cases i with
  | ldStVx x => exact absurd rfl (h x)
  | _ => rfl

/-- A register that an instruction does not write keeps its value. -/
theorem completed_readV {r : Reg} (h : writesReg i r = false) :
    (completed i s).readV r = s.readV r := by
  have hset : ∀ x b, (r == x) = false → (s.beginCycle.setV x b).readV r = s.readV r :=
    fun x b hx => by rw [State.setV_readV, if_neg (ne_of_beq_false hx)]; rfl
  cases i with
  | ldImm | addImm | rnd | ldReg | orReg | andReg | xorReg | ldVxDt => exact hset _ _ h
  | addReg | sub | subn =>
    obtain ⟨hx, hf⟩ := Bool.or_eq_false_iff.1 h
    refine (resultThenFlag_readV _ _ _ _ _).trans ?_
    rw [if_neg (ne_of_beq_false hf), if_neg (ne_of_beq_false hx)]; rfl
  | shr | shl =>
    obtain ⟨hx, hf⟩ := Bool.or_eq_false_iff.1 h
    refine (flagThenResult_readV _ _ _ _ _).trans ?_
    rw [if_neg (ne_of_beq_false hx), if_neg (ne_of_beq_false hf)]; rfl
  | drw x y n => exact (showDrawing_readV _ _ _).trans (if_neg (ne_of_beq_false h))
  | ldRegs x => exact (regsLoaded_get s x r).trans (if_neg (of_decide_eq_false h))
  | _ => rfl

end

/-! ### Where PC goes (R14) -/

theorem skipTarget_cases (c : Bool) (s : State) :
    skipTarget c s = s.pc + 2 ∨ skipTarget c s = s.pc + 4 := by
  cases c with
  | false => exact .inl rfl
  | true => exact .inr (BitVec.add_assoc s.pc 2 2)

theorem zext16_toNat (nnn : Addr12) : (zext16 nnn).toNat = nnn.toNat :=
  BitVec.toNat_setWidth_of_le (by decide)

/-- The target of JP_V0 never wraps (R88). -/
theorem jumpV0_toNat (nnn : Addr12) (b : Byte) :
    (zext16 nnn + zextByte b).toNat = nnn.toNat + b.toNat := by
  have hb : (zextByte b).toNat = b.toNat := BitVec.toNat_setWidth_of_le (by decide)
  have := nnn.isLt
  have := b.isLt
  rw [BitVec.toNat_add, zext16_toNat, hb]
  omega

end Sys2Proof.Machine

/-! ## The invariant -/

namespace Sys2Proof.Machine

/-! ### A word the decoder does not know is reported as it is (R53) -/

/-- An UNKNOWN that `d` may be carries the word `w`. -/
def KeepsWord (d : Decoded) (w : Word) : Prop := ∀ w', d = .unknown w' → w' = w

theorem keepsWord_instr (i : Instr) (w : Word) : KeepsWord (.instr i) w := fun _ h => by cases h

theorem keepsWord_unknown (w : Word) : KeepsWord (.unknown w) w := fun _ h => by cases h; rfl

theorem decodeFamily0_keepsWord (w : Word) : KeepsWord (decodeFamily0 w) w := by
  unfold decodeFamily0
  split_ifs
  · exact keepsWord_instr _ w
  · exact keepsWord_instr _ w
  · exact keepsWord_unknown w

theorem decodeFamily8_keepsWord (w : Word) : KeepsWord (decodeFamily8 w) w := by
  unfold decodeFamily8
  split
  case h_10 => exact keepsWord_unknown w
  all_goals exact keepsWord_instr _ w

theorem decodeFamilyE_keepsWord (w : Word) : KeepsWord (decodeFamilyE w) w := by
  unfold decodeFamilyE
  split_ifs
  · exact keepsWord_instr _ w
  · exact keepsWord_instr _ w
  · exact keepsWord_unknown w

theorem decodeFamilyF_keepsWord (w : Word) : KeepsWord (decodeFamilyF w) w := by
  unfold decodeFamilyF
  split_ifs
  case neg => exact keepsWord_unknown w
  all_goals exact keepsWord_instr _ w

theorem decode_keepsWord (w : Word) : KeepsWord (decode w) w := by
  have hreg : ∀ i, KeepsWord (if fieldN w = 0 then .instr i else .unknown w) w := fun i => by
    split_ifs
    · exact keepsWord_instr i w
    · exact keepsWord_unknown w
  unfold decode
  split
  case h_1 => exact decodeFamily0_keepsWord w
  case h_6 | h_10 => exact hreg _
  case h_9 => exact decodeFamily8_keepsWord w
  case h_15 => exact decodeFamilyE_keepsWord w
  case h_16 => exact decodeFamilyF_keepsWord w
  all_goals exact keepsWord_instr _ w

/-! ### The operations of the surroundings -/

section
variable {s : State}

/-- The invariant does not speak of the inputs, the draw count, the pending actions or the answer to
a load. -/
theorem Inv.withSurroundings (h : Inv s) (keys : BitVec 16) (rnd : Byte) (draws : Nat)
    (pending : List HostAction) (reply : Option LoadReply) :
    Inv { s with keys := keys, rnd := rnd, draws := draws, pending := pending, loadReply := reply } :=
  ⟨h.memory, h.depth, h.returns, h.pc, h.precise, h.explained, h.loading, h.reports, h.unknown⟩

theorem Inv.setPending (h : Inv s) (l : List HostAction) : Inv (s.setPending l) :=
  h.withSurroundings s.keys s.rnd s.draws l s.loadReply

theorem Inv.setLoadReply (h : Inv s) (r : LoadReply) : Inv (s.setLoadReply r) :=
  h.withSurroundings s.keys s.rnd s.draws s.pending (some r)

theorem Inv.beginsCycle {s' : State} (h : Inv s) (hb : BeginsCycle s s') : Inv s' := by
  rw [hb.core_eq]
  exact h.withSurroundings s'.keys s'.rnd s'.draws s'.pending s.loadReply

theorem Inv.setMem (h : Inv s) {m : Memory} (hm : m.wf) : Inv (s.setMem m) :=
  ⟨hm, h.depth, h.returns, h.pc, h.precise, h.explained, h.loading, h.reports, h.unknown⟩

theorem Inv.loadBytes (h : Inv s) (base : Nat) (bytes : List Byte) : Inv (loadBytes base bytes s) := by
  unfold Machine.loadBytes
  split_ifs with hen hfit
  · exact h.setLoadReply _
  · exact h.setLoadReply _
  · exact (h.setMem (memWriteBytes_wf h.memory (by omega))).setLoadReply _

/-- A timer at zero stays there, so a tick in LOADING changes nothing. -/
theorem Inv.tick (h : Inv s) : Inv (tick s) := by
  unfold Machine.tick
  split_ifs with hf
  · exact h
  · refine ⟨h.memory, h.depth, h.returns, h.pc, h.precise, h.explained, fun hl => ?_, h.reports,
      h.unknown⟩
    obtain ⟨hv, hi, hpc, hstack, hfb, hdt, hst, hreports⟩ := h.loading hl
    exact ⟨hv, hi, hpc, hstack, hfb, congrArg timerDown hdt, congrArg timerDown hst, hreports⟩

theorem inv_resetCore (s : State) : Inv (resetCore s) where
  memory := reset_mem_wf
  depth _ _ := Nat.zero_le _
  returns _ h := absurd h List.not_mem_nil
  pc := by change Config.romBase.toNat ≤ 0x10FE; decide
  precise h := absurd rfl h
  explained := ⟨rfl, rfl⟩
  loading _ := ⟨rfl, rfl, rfl, rfl, rfl, rfl, rfl, rfl, rfl, rfl⟩
  reports h := Bool.false_ne_true h.1
  unknown h := absurd h Bool.false_ne_true

/-! ### The cycle -/

/-- A fault whose record explains the state keeps the invariant (R143). -/
theorem Inv.recordFault (h : Inv s) {c : FaultCause} {n : BitVec 17}
    (he : faultExplained (s.recordFault c n)) : Inv (s.recordFault c n) :=
  ⟨h.memory, h.depth, h.returns, h.pc, fun _ => rfl, he, h.loading, h.reports, h.unknown⟩

/-- A core that is not halted has a blank record. -/
theorem faultExplained_running (hf : s.fault = .none) :
    faultExplained s ↔ s.faultPc = 0 ∧ s.faultInfo = 0 := by rw [faultExplained, hf]

theorem pc_add_two (hp : s.fetchable) : (s.pc + 2).toNat = s.pc.toNat + 2 := by
  rw [BitVec.toNat_add]
  exact Nat.mod_eq_of_lt (by change s.pc.toNat + 2 < 65536; omega)

theorem Inv.reportUnknown (h : Inv s) (hf : s.fault = .none) (hp : s.fetchable) {w : Word}
    (hw : decode w = .unknown w) : Inv (s.beginCycle.reportUnknown w) where
  memory := h.memory
  depth := h.depth
  returns := h.returns
  pc := by change (s.pc + 2).toNat ≤ 0x10FE; rw [pc_add_two hp]; omega
  precise hh := absurd hf hh
  explained := (faultExplained_running (s := s.beginCycle.reportUnknown w) hf).2
    ((faultExplained_running hf).1 h.explained)
  loading h := by cases h
  reports h := Bool.false_ne_true h.1
  unknown _ := hw

theorem completed_mem_wf {i : Instr} (h : s.mem.wf) (hr : faultRaised i s = none) :
    (completed i s).mem.wf := by
  have hwrite : ∀ bs : List Byte, accessFault bs.length s = none →
      (memWriteBytes s.mem s.i.toNat bs).wf := fun bs ha => by
    cases bs with
    | nil => exact h
    | cons b bs =>
      have := accessFault_eq_none.1 ha bs.length (Nat.lt_succ_self _)
      exact memWriteBytes_wf h (by rw [List.length_cons]; omega)
  cases i with
  | ldB x => exact hwrite (bcdDigits (s.readV x)) hr
  | stRegs x => exact hwrite (regsUpTo s x) (by rw [regsUpTo_length]; exact hr)
  | _ => exact h

/-- A call that raises no fault finds room, and no other instruction makes the stack longer. -/
theorem completed_depth {i : Instr} {d : Nat} (hd : s.params.stackDepth = some d)
    (h : s.stack.length ≤ d) (hr : faultRaised i s = none) : (completed i s).stack.length ≤ d := by
  cases i with
  | ret => exact (List.dropLast_sublist s.stack).length_le.trans h
  | call nnn =>
    have hroom : s.stackFull = false := by simpa [faultRaised] using hr
    have := stackFull_false_iff s |>.1 hroom d hd
    change (s.stack ++ [s.pc + 2]).length ≤ d
    rwa [List.length_append]
  | _ => exact h

theorem completed_returns {i : Instr} (hp : s.fetchable)
    (h : ∀ r ∈ s.stack, 2 ≤ r.toNat ∧ r.toNat ≤ 0x1000) :
    ∀ r ∈ (completed i s).stack, 2 ≤ r.toNat ∧ r.toNat ≤ 0x1000 := by
  cases i with
  | ret => exact fun r hr => h r (List.mem_of_mem_dropLast hr)
  | call nnn =>
    intro r hr
    rcases List.mem_append.1 hr with hr | hr
    · exact h r hr
    · rw [List.mem_singleton.1 hr, pc_add_two hp]; omega
  | _ => exact h

/-- The highest PC is that of a JP_V0 to 0xFFF + 0xFF (R88). -/
theorem completed_pc_le {i : Instr} (hp : s.fetchable) (hr : ∀ r ∈ s.stack, r.toNat ≤ 0x1000) :
    (completed i s).pc.toNat ≤ 0x10FE := by
  have hnext := pc_add_two hp
  have hskip : ∀ c, (skipTarget c s).toNat ≤ 0x10FE := fun c => by
    rcases skipTarget_cases c s with he | he <;> rw [he]
    · omega
    · bv_omega
  cases i with
  | jp nnn | call nnn =>
    have := nnn.isLt
    exact (zext16_toNat nnn).trans_le (by omega)
  | jpV0 nnn =>
    have := nnn.isLt
    have := (s.readV .v0).isLt
    exact (jumpV0_toNat nnn (s.readV .v0)).trans_le (by omega)
  | ret =>
    change (s.stack.getLast?.getD 0).toNat ≤ 0x10FE
    cases hs : s.stack.getLast? with
    | none => decide
    | some r => exact (hr r (List.mem_of_getLast? hs)).trans (by decide)
  | seImm | sneImm | seReg | sneReg | skp | sknp => exact hskip _
  | ldVxK x =>
    change (if pressed s.keys (s.readV x) then s.pc + 2 else s.pc + 2 - 2).toNat ≤ 0x10FE
    split
    · omega
    · rw [BitVec.add_sub_cancel]; omega
  | _ => change (s.pc + 2).toNat ≤ 0x10FE; omega

theorem Inv.completed (h : Inv s) (hf : s.fault = .none) (hp : s.fetchable) {i : Instr}
    (hr : faultRaised i s = none) : Inv (completed i s) where
  memory := completed_mem_wf h.memory hr
  depth d hd := by
    rw [completed_params] at hd
    exact completed_depth hd (h.depth d hd) hr
  returns := completed_returns hp h.returns
  pc := completed_pc_le hp fun r hr => (h.returns r hr).2
  precise hh := absurd hf (by rwa [completed_fault] at hh)
  explained := by
    rw [faultExplained_running (by rwa [completed_fault]), completed_faultPc, completed_faultInfo]
    exact (faultExplained_running hf).1 h.explained
  loading hl := by rw [completed_phase] at hl; cases hl
  reports hd := by rw [completed_unk] at hd; exact Bool.false_ne_true hd.2
  unknown hu := by rw [completed_unk] at hu; exact absurd hu Bool.false_ne_true

theorem Inv.exec (h : Inv s) (hf : s.fault = .none) (hp : s.fetchable) {i : Instr} {t : State}
    (he : exec i s = .next t) : Inv t := by
  cases hr : faultRaised i s with
  | none =>
    rw [exec_completes hr] at he
    cases he
    exact h.completed hf hp hr
  | some f =>
    rw [exec_faults hr] at he
    cases he
    exact h.recordFault (faultRaised_explained hr).2

theorem Inv.cycle (h : Inv s) {t : State} (hc : cycle s = .next t) : Inv t := by
  by_cases hf : s.fault = .none
  · rcases cycle_cases hf with ⟨i, hp, -, he⟩ | ⟨w, hp, hd, he⟩ | ⟨hpc, he⟩ <;> rw [he] at hc
    · exact h.exec hf hp hc
    · cases hc
      have hw : w = fetchWord s := decode_keepsWord _ w hd
      exact h.reportUnknown hf hp (by rw [hw, hd, hw])
    · cases hc
      exact h.recordFault ⟨hpc, memFault_info_toNat s.pc⟩
  · rw [cycle_halted hf] at hc
    cases hc

end

/-- Settles O58: by the action the step performs. -/
theorem everyStepKeepsTheInvariant : Obligations.EveryStepKeepsTheInvariant := by
  intro s t h hstep
  rcases step_cases s with ⟨s', hb, he⟩ | ⟨rest, -, he⟩ | ⟨base, bytes, rest, -, he⟩ |
    ⟨rest, -, he⟩ <;> rw [he] at hstep
  · exact (h.beginsCycle hb).cycle hstep
  · cases hstep
    exact (h.setPending rest).tick
  · cases hstep
    exact (h.setPending rest).loadBytes base bytes
  · cases hstep
    exact inv_resetCore _

/-- Settles O57: the reset state is what a reset leaves of itself. -/
theorem resetMeetsTheInvariant : Obligations.ResetMeetsTheInvariant := inv_resetCore State.reset

end Sys2Proof.Machine

/-! ## What each piece of state is changed by -/

namespace Sys2Proof.Machine

/-- Settles O48: a fault writes no register, and completion only the destinations. -/
theorem onlyDestinationsChange : Obligations.OnlyDestinationsChange := fun _ _ =>
  exec_of_both (fun _ => completed_readV) fun _ _ _ _ => rfl

/-- Settles O50: a fault writes none of the five, and completion only as `completed_i` and its
companions say. -/
theorem eachRegisterHasItsWriters : Obligations.EachRegisterHasItsWriters := fun _ _ =>
  exec_of_both ⟨completed_i, completed_stack, completed_fb, completed_dt, completed_st⟩
    fun _ _ => ⟨fun _ _ => rfl, fun _ _ => rfl, fun _ _ => rfl, fun _ => rfl, fun _ => rfl⟩

/-! ### VF as a flag (R11) -/

/-- R11's full byte. -/
theorem flagByte_cases (b : Bool) : flagByte b = 0 ∨ flagByte b = 1 := by
  cases b with
  | false => exact .inl rfl
  | true => exact .inr rfl

theorem resultThenFlag_vf_cases (x : Reg) (b : Byte) (f : Bool) (s : State) :
    (resultThenFlag x b f s).readV .vf = 0 ∨ (resultThenFlag x b f s).readV .vf = 1 := by
  rw [resultThenFlag_readV, if_pos rfl]
  exact flagByte_cases f

theorem flagThenResult_vf_cases {x : Reg} (hx : x ≠ .vf) (b : Byte) (f : Bool) (s : State) :
    (flagThenResult x b f s).readV .vf = 0 ∨ (flagThenResult x b f s).readV .vf = 1 := by
  rw [flagThenResult_readV, if_neg hx.symm, if_pos rfl]
  exact flagByte_cases f

theorem showDrawing_vf_cases (d : Drawing) (s : State) :
    (showDrawing d s).readV .vf = 0 ∨ (showDrawing d s).readV .vf = 1 := by
  rw [showDrawing_readV, if_pos rfl]
  exact flagByte_cases d.collided

/-- The six flag writers apart, an instruction writes VF only as its destination. -/
theorem writesReg_vf_eq_false {i : Instr}
    (hflag : ∀ a b, i ≠ .addReg a b ∧ i ≠ .sub a b ∧ i ≠ .subn a b ∧ i ≠ .shr a b ∧ i ≠ .shl a b)
    (hdrw : ∀ a b m, i ≠ .drw a b m)
    (hdest : ∀ b kk, i ≠ .ldImm .vf kk ∧ i ≠ .addImm .vf kk ∧ i ≠ .rnd .vf kk ∧ i ≠ .ldReg .vf b ∧
      i ≠ .orReg .vf b ∧ i ≠ .andReg .vf b ∧ i ≠ .xorReg .vf b ∧ i ≠ .ldVxDt .vf ∧ i ≠ .ldRegs .vf) :
    writesReg i .vf = false := by
  have hne : ∀ x : Reg, x ≠ .vf → ((Reg.vf : Reg) == x) = false := fun x hx =>
    beq_false_of_ne hx.symm
  cases i with
  | addReg a b | sub a b | subn a b | shr a b | shl a b => simpa using hflag a b
  | drw a b m => exact absurd rfl (hdrw a b m)
  | ldImm x kk | addImm x kk | rnd x kk => exact hne x (by simpa using hdest 0 kk)
  | ldReg x b | orReg x b | andReg x b | xorReg x b => exact hne x (by simpa using hdest b 0)
  | ldVxDt x => exact hne x (by simpa using hdest 0 0)
  | ldRegs x =>
    have hx : x ≠ .vf := by simpa using hdest 0 0
    exact decide_eq_false fun hle => hx (le_antisymm (Fin.le_last x) hle)
  | _ => rfl

/-- Settles O49: each of the six leaves a flag byte, and the others write VF only as destination. -/
theorem vfIsWrittenAsAFullByte : Obligations.VfIsWrittenAsAFullByte := by
  refine fun s x y n => ⟨fun hx i hi => ?_, ?_, fun i hflag hdrw hdest => ?_⟩
  · simp only [List.mem_cons, List.not_mem_nil, or_false] at hi
    rcases hi with rfl | rfl | rfl | rfl | rfl
    · exact ⟨_, rfl, resultThenFlag_vf_cases ..⟩
    · exact ⟨_, rfl, resultThenFlag_vf_cases ..⟩
    · exact ⟨_, rfl, resultThenFlag_vf_cases ..⟩
    · exact ⟨_, rfl, flagThenResult_vf_cases hx ..⟩
    · exact ⟨_, rfl, flagThenResult_vf_cases hx ..⟩
  · refine exec_of_both (fun _ => showDrawing_vf_cases ..) fun c m hpc => ?_
    have hpc : s.pc = s.pc + 2 := hpc
    bv_omega
  · obtain ⟨t, he, hframe⟩ := onlyDestinationsChange i s
    exact ⟨t, he, hframe .vf (writesReg_vf_eq_false hflag hdrw hdest)⟩

/-! ### PC and the reports after an instruction that does not fault -/

/-- A fact about instructions that do not fault is one about `completed`. -/
theorem exec_of_completed {i : Instr} {s : State} {P : State → Prop}
    (h : faultRaised i s = none → P (completed i s)) :
    ∃ t, exec i s = .next t ∧ (t.fault = .none → P t) := by
  cases hr : faultRaised i s with
  | none => exact ⟨_, exec_completes hr, fun _ => h hr⟩
  | some f => exact ⟨_, exec_faults hr, fun ht => absurd ht (faultRaised_explained hr).1⟩

/-- Settles O51: by the instruction. -/
theorem pcAfterEachInstruction : Obligations.PcAfterEachInstruction := by
  refine fun i s _ => exec_of_completed fun hr => ?_
  cases i with
  | jp nnn | call nnn => exact zext16_toNat nnn
  | jpV0 nnn => exact jumpV0_toNat nnn (s.readV .v0)
  | ret =>
    have hs : s.stack ≠ [] := by simpa [faultRaised] using hr
    change s.stack.getLast? = some (s.stack.getLast?.getD 0)
    rw [List.getLast?_eq_some_getLast hs]; rfl
  | seImm | sneImm | seReg | sneReg | skp | sknp => exact skipTarget_cases _ s
  | ldVxK x =>
    change (if pressed s.keys (s.readV x) then s.pc + 2 else s.pc + 2 - 2) = s.pc ∨
      (if pressed s.keys (s.readV x) then s.pc + 2 else s.pc + 2 - 2) = s.pc + 2
    split
    · exact .inr rfl
    · exact .inl (BitVec.add_sub_cancel s.pc 2)
  | _ => rfl

/-- Settles O52: the reports are those `beginCycle` cleared, but for DIRTY of CLS and DRW. -/
theorem reportsAreOfThisCycle : Obligations.ReportsAreOfThisCycle := fun i s _ =>
  exec_of_completed fun _ => ⟨completed_unk i s, completed_unkWord i s, completed_phase i s,
    fun hcls => by rw [hcls]; rfl, completed_dirty⟩

end Sys2Proof.Machine

/-! ## What execution does not depend on -/

namespace Sys2Proof.Machine

/-- `s` with other values in the four fields nothing reads. -/
def State.withReports (s : State) (d u : Bool) (w : Word) (p : Phase) : State :=
  { s with dirty := d, unk := u, unkWord := w, phase := p }

section
variable (i : Instr) (s : State)

theorem faultRaised_withReports (d u : Bool) (w : Word) (p : Phase) :
    faultRaised i (s.withReports d u w p) = faultRaised i s := by cases i <;> rfl

/-- The cycle writes DIRTY, UNK and PHASE afresh, so only UNK_WORD shows the difference. -/
theorem completed_withReports (d u : Bool) (w : Word) (p : Phase) :
    completed i (s.withReports d u w p) = { completed i s with unkWord := w } := by cases i <;> rfl

theorem faultRaised_keys (k : BitVec 16) : faultRaised i { s with keys := k } = faultRaised i s := by
  cases i <;> rfl

theorem faultRaised_rnd (b : Byte) : faultRaised i { s with rnd := b } = faultRaised i s := by
  cases i <;> rfl

variable {i}

theorem completed_keys (h : ∀ x, i ≠ .skp x ∧ i ≠ .sknp x ∧ i ≠ .ldVxK x) (k : BitVec 16) :
    completed i { s with keys := k } = { completed i s with keys := k } := by
  cases i with
  | skp x | sknp x | ldVxK x => simpa using h x
  | _ => rfl

theorem completed_rnd (h : ∀ x kk, i ≠ .rnd x kk) (b : Byte) :
    completed i { s with rnd := b } = { completed i s with rnd := b } := by
  cases i with
  | rnd x kk => exact absurd rfl (h x kk)
  | _ => rfl

end

/-- Settles O53: neither the fault nor the completed state depends on the reports. -/
theorem reportsNeverAffectExecution : Obligations.ReportsNeverAffectExecution := by
  intro i s d u w p
  have hsame := faultRaised_withReports i s d u w p
  cases hr : faultRaised i s with
  | none =>
    exact ⟨_, _, exec_completes hr,
      (exec_completes (hsame.trans hr)).trans (congrArg _ (completed_withReports i s d u w p)),
      rfl, fun _ _ => ⟨rfl, rfl, rfl⟩⟩
  | some f =>
    exact ⟨_, _, exec_faults hr, exec_faults (hsame.trans hr), rfl,
      fun _ ht => absurd ht (faultRaised_explained hr).1⟩

/-- Settles O54: neither the fault nor the completed state depends on an input the instruction does
not read. -/
theorem inputsAreReadOnlyByTheirInstructions : Obligations.InputsAreReadOnlyByTheirInstructions := by
  intro i s k b
  have hkeys := faultRaised_keys i s k
  have hrnd := faultRaised_rnd i s b
  cases hr : faultRaised i s with
  | none =>
    exact ⟨_, exec_completes hr,
      fun h => (exec_completes (hkeys.trans hr)).trans (congrArg _ (completed_keys s h k)),
      fun h => (exec_completes (hrnd.trans hr)).trans (congrArg _ (completed_rnd s h b))⟩
  | some f =>
    exact ⟨_, exec_faults hr, fun _ => exec_faults (hkeys.trans hr),
      fun _ => exec_faults (hrnd.trans hr)⟩

/-- Settles O55: the cycle overwrites both latches as it begins. -/
theorem noInputIsRemembered : Obligations.NoInputIsRemembered := by
  intro s₀ s k b hb
  have hb' : BeginsCycle { s₀ with keys := k, rnd := b } s := hb
  rw [hb.step_eq, hb'.step_eq]

/-- Settles O41: by the definition of `State.reset`. -/
theorem resetStateValues : Obligations.ResetStateValues :=
  ⟨fun r => Vector.getElem_replicate r.isLt, rfl, rfl, rfl, memRead_nil,
    fun x _ y _ => fbGet_blank x y, rfl, rfl, rfl, rfl, rfl, rfl, rfl, rfl, rfl, rfl, rfl⟩

end Sys2Proof.Machine

/-! ## The bounds check, the stores and the reachable states -/

namespace Sys2Proof.Machine

/-! ### The bounds check (R33) -/

theorem firstBadAddr_eq_some_iff {base count a : Nat} :
    firstBadAddr base count = some a ↔
      0 < count ∧ Config.memSize < base + count ∧ a = max base Config.memSize := by
  refine ⟨firstBadAddr_eq_some, fun ⟨h0, h1, ha⟩ => ?_⟩
  rw [firstBadAddr, if_pos ⟨h0, h1⟩, ha]

/-- Settles O35: an access that reaches above 0xFFF offends first at its base or, from a base inside
memory, at 0x1000. -/
theorem boundsCheckFindsTheLowestOffender : Obligations.BoundsCheckFindsTheLowestOffender := by
  refine fun base count => ⟨?_, fun a => ?_⟩
  · rw [firstBadAddr_eq_none]
    exact forall₂_congr fun k _ => Nat.lt_succ_iff
  · rw [firstBadAddr_eq_some_iff, memSize_eq]
    constructor
    · rintro ⟨h0, h1, rfl⟩
      exact ⟨by omega, ⟨max base 4096 - base, by omega, by omega⟩, fun k _ hbad => by omega⟩
    · rintro ⟨hbad, ⟨k, hk, rfl⟩, hleast⟩
      refine ⟨by omega, by omega, ?_⟩
      by_cases hbase : 0xFFF < base
      · have := hleast 0 (by omega) hbase
        omega
      · have := hleast (4096 - base) (by omega) (by omega)
        omega

/-! ### The stores (R35) -/

/-- A store leaves every byte outside its own range as it was. -/
theorem memRead_memWriteBytes_outside (m : Memory) {a q : Nat} {bs : List Byte}
    (h : q < a ∨ a + bs.length ≤ q) : memRead (memWriteBytes m a bs) q = memRead m q := by
  rw [memRead_memWriteBytes, dif_neg (by omega)]

theorem completed_memRead {i : Instr} {s : State} {a : Nat}
    (h : a < s.i.toNat ∨ s.i.toNat + bytesStored i ≤ a) :
    memRead (completed i s).mem a = memRead s.mem a := by
  cases i with
  | ldB x => exact memRead_memWriteBytes_outside s.mem h
  | stRegs x => exact memRead_memWriteBytes_outside s.mem (by rwa [regsUpTo_length])
  | _ => rfl

/-- Settles O47: a fault writes no memory, and completion only the bytes stored. -/
theorem onlyStoresChangeMemory : Obligations.OnlyStoresChangeMemory := fun _ _ =>
  exec_of_both (fun _ => completed_memRead) fun _ _ _ _ => rfl

/-- The bytes ST_REGS stores, read back where V[r] went. -/
theorem memRead_stRegs {s : State} {x r : Reg} {q : Nat} (hr : r ≤ x) (hq : q = s.i.toNat + r.val) :
    memRead (completed (.stRegs x) s).mem q = s.readV r := by
  subst hq
  refine (memRead_regsUpTo s.mem s.i.toNat s x _).trans ?_
  rw [dif_pos ⟨Nat.le_add_right _ _, Nat.add_le_add_left hr _⟩]
  simp only [Nat.add_sub_cancel_left]

/-- Settles O56: the two bytes at the new PC are V[k] and V[k + 1] read back. -/
theorem storedBytesAreFetched : Obligations.StoredBytesAreFetched := by
  intro s x k hx hk hpc
  have hnofault : faultRaised (.stRegs x) s = none :=
    accessFault_eq_none.2 fun j hj => by rw [memSize_eq]; omega
  have hsucc : (k + 1).val = k.val + 1 := Fin.val_add_one_of_lt' (by omega)
  have hhigh : memRead (completed (.stRegs x) s).mem (s.pc + 2).toNat = s.readV k :=
    memRead_stRegs (Fin.le_def.2 (by omega)) hpc
  have hlow : memRead (completed (.stRegs x) s).mem ((s.pc + 2).toNat + 1) = s.readV (k + 1) :=
    memRead_stRegs (Fin.le_def.2 (by omega)) (by omega)
  exact ⟨_, exec_completes hnofault, congrArg₂ wordOfBytes hhigh hlow⟩

/-! ### The reachable states (R38, R166) -/

/-- A run of `n + 1` steps that stops nowhere begins with a step that answers. -/
theorem exists_step_of_run_succ (M : Host.Core) {n : Nat} {s t : M.State}
    (h : M.run (n + 1) s = .next t) : ∃ s', M.step s = .next s' ∧ M.run n s' = .next t := by
  simp only [Host.Core.run] at h
  split at h
  case h_1 s' he => exact ⟨s', he, h⟩
  all_goals cases h

/-- What holds of a state and is kept by every step holds of each state a run reaches. -/
theorem run_induction (M : Host.Core) {P : M.State → Prop}
    (hstep : ∀ s t, P s → M.step s = .next t → P t) {n : Nat} {s t : M.State} (hs : P s)
    (h : M.run n s = .next t) : P t := by
  induction n generalizing s with
  | zero => cases h; exact hs
  | succ n ih =>
    obtain ⟨s', he, hrun⟩ := exists_step_of_run_succ M h
    exact ih (hstep s s' hs he) hrun

/-- Settles O59: the start is what a reset leaves under that schedule and those parameters, and every
step keeps the invariant. -/
theorem everyReachableStateMeetsTheInvariant : Obligations.EveryReachableStateMeetsTheInvariant :=
  fun _ schedule p _ hrun => run_induction core everyStepKeepsTheInvariant
    (inv_resetCore { State.reset with pending := schedule, params := p }) hrun

end Sys2Proof.Machine

/-! ## Decoding and encoding -/

namespace Sys2Proof.Machine

/-! ### A word is made of its fields (R51) -/

section
variable {w : Word} {op n : BitVec 4} {kk : Byte}

theorem formatA_fields (hop : (fieldOp w).toNat = op.toNat) : formatA op (fieldNNN w) = w := by
  rw [fieldOp_toNat] at hop
  apply BitVec.eq_of_toNat_eq
  rw [formatA_toNat, fieldNNN_toNat]
  omega

theorem formatXK_fields (hop : (fieldOp w).toNat = op.toNat) (hkk : fieldKK w = kk) :
    formatXK op (fieldX w) kk = w := by
  rw [fieldOp_toNat] at hop
  apply BitVec.eq_of_toNat_eq
  rw [formatXK_toNat, fieldX_val, ← hkk, fieldKK_toNat]
  omega

theorem formatX_fields (hop : (fieldOp w).toNat = op.toNat) (hkk : fieldKK w = kk) :
    formatX op (fieldX w) kk = w := formatXK_fields hop hkk

theorem formatXY_fields (hop : (fieldOp w).toNat = op.toNat) (hn : (fieldN w).toNat = n.toNat) :
    formatXY op (fieldX w) (fieldY w) n = w := by
  rw [fieldOp_toNat] at hop
  rw [fieldN_toNat] at hn
  apply BitVec.eq_of_toNat_eq
  rw [formatXY_toNat, fieldX_val, fieldY_val]
  omega

end

/-- The decoder's last family is 0xF: what is left when the fifteen others are ruled out. -/
theorem fieldOp_eq_F {w : Word} (h : ∀ k < 15, (fieldOp w).toNat ≠ k) : (fieldOp w).toNat = 0xF := by
  have hlt := (fieldOp w).isLt
  by_contra hne
  exact h _ (by omega) rfl

/-! ### Decoding the word of an instruction (R53, R54) -/

/-- The decoder undoes the encoder: the family is the word's `op`, and in it the operands and the
sub-opcode are the fields the format put them in. -/
theorem decode_encode (i : Instr) : decode (encode i) = .instr i := by
  cases i with
  | cls | ret => rfl
  | jp | call | ldI | jpV0 => simp [encode, decode]
  | seImm | sneImm | ldImm | addImm | rnd => simp [encode, decode]
  | seReg | sneReg => simp [encode, decode]
  | drw x y n =>
    simp only [encode, decode, fieldOp_formatXY, BitVec.reduceToNat, fieldX_formatXY, fieldY_formatXY,
      fieldRows_formatXY]
  | ldReg | orReg | andReg | xorReg | addReg | sub | shr | subn | shl =>
    simp [encode, decode, decodeFamily8]
  | skp | sknp => simp [encode, decode, decodeFamilyE]
  | ldVxDt | ldVxK | ldDtVx | ldStVx | addI | ldF | ldB | stRegs | ldRegs =>
    simp [encode, decode, decodeFamilyF]

/-- Settles O43, format by format. -/
theorem decodeOfEncode : Obligations.DecodeOfEncode := decode_encode

/-! ### Encoding what a word decodes to (R53) -/

/-- An instruction that `d` may be has the word `w`. -/
def HasWord (d : Decoded) (w : Word) : Prop := ∀ i, d = .instr i → encode i = w

theorem hasWord_instr {i : Instr} {w : Word} (h : encode i = w) : HasWord (.instr i) w :=
  fun _ hd => by cases hd; exact h

theorem hasWord_unknown (w w' : Word) : HasWord (.unknown w') w := fun _ hd => by cases hd

section
variable {w : Word}

/-- A comparison with a sub-opcode answers an instruction only where it holds. -/
theorem hasWord_ite {c : Prop} [Decidable c] {i : Instr} {d : Decoded} (hi : c → encode i = w)
    (hd : HasWord d w) : HasWord (if c then .instr i else d) w := by
  split_ifs with hc
  · exact hasWord_instr (hi hc)
  · exact hd

theorem decodeFamily0_hasWord : HasWord (decodeFamily0 w) w :=
  hasWord_ite Eq.symm (hasWord_ite Eq.symm (hasWord_unknown w w))

theorem decodeFamily8_hasWord (hop : (fieldOp w).toNat = 0x8) : HasWord (decodeFamily8 w) w := by
  unfold decodeFamily8
  split
  case h_10 => exact hasWord_unknown w w
  all_goals exact hasWord_instr (formatXY_fields hop ‹_›)

theorem decodeFamilyE_hasWord (hop : (fieldOp w).toNat = 0xE) : HasWord (decodeFamilyE w) w :=
  hasWord_ite (formatX_fields hop) (hasWord_ite (formatX_fields hop) (hasWord_unknown w w))

theorem decodeFamilyF_hasWord (hop : (fieldOp w).toNat = 0xF) : HasWord (decodeFamilyF w) w := by
  unfold decodeFamilyF
  repeat refine hasWord_ite (formatX_fields hop) ?_
  exact hasWord_unknown w w

theorem decode_hasWord : HasWord (decode w) w := by
  unfold decode
  split
  case h_1 => exact decodeFamily0_hasWord
  case h_2 hop | h_3 hop | h_11 hop | h_12 hop => exact hasWord_instr (formatA_fields hop)
  case h_4 hop | h_5 hop | h_7 hop | h_8 hop | h_13 hop =>
    exact hasWord_instr (formatXK_fields hop rfl)
  case h_6 hop | h_10 hop =>
    exact hasWord_ite (fun hn => formatXY_fields hop (congrArg _ hn)) (hasWord_unknown w w)
  case h_9 hop => exact decodeFamily8_hasWord hop
  case h_14 hop => exact hasWord_instr (formatXY_fields hop (by simp [fieldRows]))
  case h_15 hop => exact decodeFamilyE_hasWord hop
  case h_16 =>
    have hop : (fieldOp w).toNat = 0xF :=
      fieldOp_eq_F fun k hk => by interval_cases k <;> assumption
    exact decodeFamilyF_hasWord hop

/-- The encoder and the decoder are inverse to each other. -/
theorem decode_eq_instr_iff {i : Instr} : decode w = .instr i ↔ encode i = w :=
  ⟨decode_hasWord i, fun h => h ▸ decode_encode i⟩

end

/-- Settles O44: a word decoded to UNKNOWN is no instruction's, since decoding would give that
instruction back. -/
theorem encodeOfDecode : Obligations.EncodeOfDecode := by
  intro w
  cases hd : decode w with
  | instr i => exact .inl ⟨i, rfl, decode_hasWord i hd⟩
  | unknown w' =>
    obtain rfl : w' = w := decode_keepsWord w w' hd
    refine .inr ⟨rfl, fun i hi => ?_⟩
    rw [← decode_eq_instr_iff, hd] at hi
    cases hi

/-! ### The words of no instruction, family by family (R56) -/

section
variable {w : Word}

/-- A comparison the word passes makes it an instruction's. -/
theorem ite_instr_eq_unknown_iff {c : Prop} [Decidable c] {i : Instr} {d : Decoded} :
    (if c then .instr i else d) = .unknown w ↔ ¬ c ∧ d = .unknown w := by
  split_ifs with hc <;> simp [hc]

theorem fieldN_eq_iff {n : BitVec 4} : fieldN w = n ↔ w.toNat % 16 = n.toNat := by
  rw [← fieldN_toNat, BitVec.toNat_eq]

theorem fieldKK_eq_iff {kk : Byte} : fieldKK w = kk ↔ w.toNat % 256 = kk.toNat := by
  rw [← fieldKK_toNat, BitVec.toNat_eq]

theorem decodeFamily0_eq_unknown_iff : decodeFamily0 w = .unknown w ↔ w ≠ 0x00E0 ∧ w ≠ 0x00EE := by
  simp [decodeFamily0, ite_instr_eq_unknown_iff]

/-- Each of the sixteen values of n is an instruction's or stands in the list. -/
theorem decodeFamily8_eq_unknown_iff :
    decodeFamily8 w = .unknown w ↔ w.toNat % 16 ∈ [0x8, 0x9, 0xA, 0xB, 0xC, 0xD, 0xF] := by
  rw [← fieldN_toNat]
  unfold decodeFamily8
  have hlt := (fieldN w).isLt
  interval_cases (fieldN w).toNat <;> simp

theorem decodeFamilyE_eq_unknown_iff :
    decodeFamilyE w = .unknown w ↔ w.toNat % 256 ∉ [0x9E, 0xA1] := by
  simp [decodeFamilyE, ite_instr_eq_unknown_iff, fieldKK_eq_iff]

theorem decodeFamilyF_eq_unknown_iff : decodeFamilyF w = .unknown w ↔
    w.toNat % 256 ∉ [0x07, 0x0A, 0x15, 0x18, 0x1E, 0x29, 0x33, 0x55, 0x65] := by
  simp [decodeFamilyF, ite_instr_eq_unknown_iff, fieldKK_eq_iff]

end

/-- Settles O45, one family after the other; where `op` alone names the instruction no word is
UNKNOWN. -/
theorem unknownWordsByFamily : Obligations.UnknownWordsByFamily := by
  intro w
  simp only [← fieldOp_toNat]
  unfold decode
  split
  case h_1 hop => simp [hop, decodeFamily0_eq_unknown_iff]
  case h_6 hop | h_10 hop => simp [hop, fieldN_eq_iff]
  case h_9 hop => simp [hop, decodeFamily8_eq_unknown_iff]
  case h_15 hop => simp [hop, decodeFamilyE_eq_unknown_iff]
  case h_16 =>
    have hop : (fieldOp w).toNat = 0xF :=
      fieldOp_eq_F fun k hk => by interval_cases k <;> assumption
    simp [hop, decodeFamilyF_eq_unknown_iff]
  case h_2 hop | h_3 hop | h_4 hop | h_5 hop | h_7 hop | h_8 hop | h_11 hop | h_12 hop | h_13 hop |
      h_14 hop => simp [hop]

/-- Settles O46: each word is the encoder's, but for 0xFFFF, which the decoder evaluates. -/
theorem decodeExamples : Obligations.DecodeExamples :=
  ⟨decode_encode .cls, decode_encode (.jp 0x208), decode_encode (.ldImm 0xA 0x05),
    decode_encode (.drw 1 2 5), rfl, decode_encode (.addReg 0xA 0xB), decode_encode (.stRegs 0xC),
    decode_encode (.skp 0xC)⟩

end Sys2Proof.Machine

/-! ## The cycle: fetch, decode, execute, and when a step stops -/

namespace Sys2Proof.Machine

section
variable {s₀ s : State}

/-! ### A cycle that begins fetches from the state it begins in (R22, R23, R70) -/

theorem BeginsCycle.fault_eq (hb : BeginsCycle s₀ s) : s.fault = s₀.fault := by rw [hb.core_eq]

theorem BeginsCycle.pc_eq (hb : BeginsCycle s₀ s) : s.pc = s₀.pc := by rw [hb.core_eq]

theorem BeginsCycle.fetchWord_eq (hb : BeginsCycle s₀ s) : fetchWord s = fetchWord s₀ := by
  rw [hb.core_eq]; rfl

/-- A running core executes what the decoder answers for the word at PC (R70, R71). -/
theorem cycle_eq_execDecoded (hf : s.fault = .none) (hp : s.fetchable) :
    cycle s = execDecoded (decode (fetchWord s)) s := by
  rcases cycle_cases hf with ⟨i, -, hd, he⟩ | ⟨w, -, hd, he⟩ | ⟨hpc, -⟩
  · rw [he, hd]; rfl
  · rw [he, hd]; rfl
  · exact absurd hp (Nat.not_le.2 hpc)

theorem BeginsCycle.step_eq_execDecoded (hb : BeginsCycle s₀ s) (hf : s₀.fault = .none)
    (hp : s₀.fetchable) : step s₀ = execDecoded (decode (fetchWord s₀)) s := by
  have hp' : s.fetchable := by rwa [State.fetchable, hb.pc_eq]
  rw [hb.step_eq, cycle_eq_execDecoded (hb.fault_eq.trans hf) hp', hb.fetchWord_eq]

/-! ### When a step answers a next state (R75, R144) -/

/-- Instruction, UNKNOWN or faulting fetch: each is a next state (R143). -/
theorem cycle_isNext (hf : s.fault = .none) : ∃ t, cycle s = .next t := by
  rcases cycle_cases hf with ⟨i, -, -, he⟩ | ⟨w, -, -, he⟩ | ⟨-, he⟩
  · rw [he]; exact exec_isNext i s
  · exact ⟨_, he⟩
  · exact ⟨_, he⟩

theorem step_isNext (h : (∀ s, ¬ BeginsCycle s₀ s) ∨ s₀.fault = .none) :
    ∃ t, step s₀ = .next t := by
  rcases step_cases s₀ with ⟨s, hb, he⟩ | ⟨_, -, he⟩ | ⟨_, _, _, -, he⟩ | ⟨_, -, he⟩
  · have hf : s₀.fault = .none := h.resolve_left fun hno => hno s hb
    rw [he]
    exact cycle_isNext (hb.fault_eq.trans hf)
  all_goals exact ⟨_, he⟩

theorem BeginsCycle.step_halted (hb : BeginsCycle s₀ s) (hf : s₀.halted) :
    step s₀ = .fault (.halted s₀.fault) := by
  rw [hb.step_eq, cycle_halted (by rwa [hb.fault_eq]), hb.fault_eq]

end

/-- Settles O36: each step is of one of the two kinds, and no answer is both a stop and a next
state. -/
theorem onlyAHaltedCoreStops : Obligations.OnlyAHaltedCoreStops := by
  intro s₀
  have hkinds : ¬ ((∃ s, BeginsCycle s₀ s) ∧ s₀.halted) ↔
      (∀ s, ¬ BeginsCycle s₀ s) ∨ s₀.fault = .none := by
    rw [not_and_or, not_exists, not_not]
  have hstop : (∃ s, BeginsCycle s₀ s) ∧ s₀.halted → step s₀ = .fault (.halted s₀.fault) :=
    fun ⟨⟨_, hb⟩, hf⟩ => hb.step_halted hf
  constructor
  · refine ⟨hstop, fun he => by_contra fun hno => ?_⟩
    obtain ⟨t, ht⟩ := step_isNext (hkinds.1 hno)
    cases he.symm.trans ht
  · refine ⟨step_isNext, fun ⟨t, ht⟩ => hkinds.1 fun hs => ?_⟩
    cases (hstop hs).symm.trans ht

/-- Settles O31: the two bytes at PC, high byte first, are the word fetched. -/
theorem stepRunsTheDecodedInstruction : Obligations.StepRunsTheDecodedInstruction := by
  intro s₀ s i hb hf hp hd
  have hdecode : decode (fetchWord s₀) = .instr i := hd
  rw [hb.step_eq_execDecoded hf hp, hdecode]
  rfl

/-- Settles O32: the decoder answers UNKNOWN with the word it was given, and UNKNOWN only reports
it. -/
theorem unknownWordIsAnInertStep : Obligations.UnknownWordIsAnInertStep := by
  intro s₀ s w hb hf hp hw hno
  have hfetch : fetchWord s₀ = w := hw.symm
  cases hd : decode w with
  | instr i => exact absurd hd (hno i)
  | unknown w' =>
    obtain rfl : w' = w := decode_keepsWord w w' hd
    rw [hb.step_eq_execDecoded hf hp, hfetch, hd, ← hb.pc_eq]
    rfl

end Sys2Proof.Machine

/-! ## Control transfer -/

namespace Sys2Proof.Machine

section
variable {s : State}

/-! ### Calls and returns (R81, R83) -/

theorem exec_ret_pops {older : List Word} {newest : Word} (h : s.stack = older ++ [newest]) :
    exec .ret s = .next ((s.beginCycle.setStack older).setPc newest) := by
  have hr : faultRaised .ret s = none := if_neg (by simp [h])
  rw [exec_completes hr]
  simp [completed, h]

theorem exec_ret_underflows (h : s.stack = []) :
    exec .ret s = .next (s.recordFault .stackUnderflow 0x00EE) :=
  exec_faults (if_pos h)

theorem exec_call_pushes (nnn : Addr12)
    (h : ∀ d, s.params.stackDepth = some d → s.stack.length < d) :
    exec (.call nnn) s =
      .next ((s.beginCycle.setStack (s.stack ++ [s.pc + 2])).setPc (zext16 nnn)) := by
  have hr : faultRaised (.call nnn) s = none := by simp [faultRaised, (stackFull_false_iff s).2 h]
  exact exec_completes hr

theorem exec_call_overflows (nnn : Addr12) (h : s.params.stackDepth = some s.stack.length) :
    exec (.call nnn) s = .next (s.recordFault .stackOverflow (wordInfo (encode (.call nnn)))) :=
  exec_faults (if_pos ((stackFull_iff s).2 ⟨_, h, le_rfl⟩))

/-- The word a StackOverflow reports, as a number (R24). -/
theorem wordInfo_call_toNat (nnn : Addr12) :
    (wordInfo (encode (.call nnn))).toNat = 0x2000 + nnn.toNat :=
  (BitVec.toNat_setWidth_of_le (by decide)).trans (formatA_toNat 0x2 nnn)

end

/-- Settles O8: the return pops the address the call pushed. -/
theorem callThenReturnComesBack : Obligations.CallThenReturnComesBack := fun _ nnn hroom =>
  ⟨_, _, exec_call_pushes nnn hroom, exec_ret_pops rfl, rfl, rfl, rfl, rfl⟩

/-- Settles O5, by whether the stack holds an address. -/
theorem retPopsOrUnderflows : Obligations.RetPopsOrUnderflows :=
  ⟨decode_encode .ret, rfl, fun _ => ⟨fun _ _ => exec_ret_pops, exec_ret_underflows⟩⟩

/-- Settles O7, by whether the stack has room. -/
theorem callPushesOrOverflows : Obligations.CallPushesOrOverflows :=
  ⟨rfl, fun _ nnn => ⟨decode_encode (.call nnn),
    fun hroom => ⟨_, exec_call_pushes nnn hroom, zext16_toNat nnn, rfl⟩,
    fun hfull => ⟨_, exec_call_overflows nnn hfull, wordInfo_call_toNat nnn, rfl⟩⟩⟩

/-! ### Jumps (R82, R88) -/

/-- Settles O6: zero extension keeps the operand's value. -/
theorem jpWritesPc : Obligations.JpWritesPc := fun _ nnn =>
  ⟨decode_encode (.jp nnn), _, rfl, zext16_toNat nnn, rfl⟩

/-- Settles O11: the sum never wraps. -/
theorem jpV0AddsV0 : Obligations.JpV0AddsV0 := fun s nnn =>
  ⟨decode_encode (.jpV0 nnn), _, rfl, jumpV0_toNat nnn (s.readV 0), rfl⟩

/-! ### Skips (R80) -/

theorem skipTarget_eq (c : Bool) (s : State) : skipTarget c s = if c then s.pc + 4 else s.pc + 2 := by
  cases c with
  | false => rfl
  | true => exact BitVec.add_assoc s.pc 2 2

theorem skipTarget_beq (a b : Byte) (s : State) :
    skipTarget (a == b) s = if a = b then s.pc + 4 else s.pc + 2 := by
  simp [skipTarget_eq]

theorem skipTarget_bne (a b : Byte) (s : State) :
    skipTarget (a != b) s = if a = b then s.pc + 2 else s.pc + 4 := by
  by_cases h : a = b <;> simp [skipTarget_eq, h]

/-- Settles O9: each skip completes at its `skipTarget`. -/
theorem immediateSkips : Obligations.ImmediateSkips := by
  refine fun s x kk => ⟨decode_encode (.seImm x kk), decode_encode (.sneImm x kk), ?_, ?_⟩
  · rw [← skipTarget_beq]
    exact exec_completes rfl
  · rw [← skipTarget_bne]
    exact exec_completes rfl

/-- Families 0x5 and 0x9 have instructions for n = 0 only (R56, D14). -/
theorem decode_formatXY_unknown {op n : BitVec 4} (hop : op = 0x5 ∨ op = 0x9) (hn : n ≠ 0)
    (x y : Reg) : decode (formatXY op x y n) = .unknown (formatXY op x y n) := by
  rcases hop with rfl | rfl <;> simpa [decode] using hn

/-- Settles O10: each skip completes at its `skipTarget`. -/
theorem registerSkips : Obligations.RegisterSkips := by
  refine fun s x y => ⟨decode_encode (.seReg x y), decode_encode (.sneReg x y), fun n hn =>
    ⟨decode_formatXY_unknown (.inl rfl) hn x y, decode_formatXY_unknown (.inr rfl) hn x y⟩, ?_, ?_⟩
  · rw [← skipTarget_beq]
    exact exec_completes rfl
  · rw [← skipTarget_bne]
    exact exec_completes rfl

end Sys2Proof.Machine

/-! ## Register loads and arithmetic -/

namespace Sys2Proof.Machine

/-! ### What a register reads after the writes of an ALU instruction (R91) -/

section
variable {s : State} {x r : Reg} {b : Byte} {f : Bool}

theorem setV_readV_self : (s.setV x b).readV x = b :=
  (State.setV_readV ..).trans (if_pos rfl)

theorem setV_readV_of_ne (h : r ≠ x) : (s.setV x b).readV r = s.readV r :=
  (State.setV_readV ..).trans (if_neg h)

theorem resultThenFlag_readV_vf : (resultThenFlag x b f s).readV .vf = flagByte f :=
  (resultThenFlag_readV ..).trans (if_pos rfl)

theorem resultThenFlag_readV_self (hx : x ≠ .vf) : (resultThenFlag x b f s).readV x = b := by
  rw [resultThenFlag_readV, if_neg hx, if_pos rfl]

theorem resultThenFlag_readV_of_ne (hx : r ≠ x) (hf : r ≠ .vf) :
    (resultThenFlag x b f s).readV r = s.readV r := by
  rw [resultThenFlag_readV, if_neg hf, if_neg hx]

theorem flagThenResult_readV_self : (flagThenResult x b f s).readV x = b :=
  (flagThenResult_readV ..).trans (if_pos rfl)

theorem flagThenResult_readV_vf (hx : x ≠ .vf) :
    (flagThenResult x b f s).readV .vf = flagByte f := by
  rw [flagThenResult_readV, if_neg hx.symm, if_pos rfl]

theorem flagThenResult_readV_of_ne (hx : r ≠ x) (hf : r ≠ .vf) :
    (flagThenResult x b f s).readV r = s.readV r := by
  rw [flagThenResult_readV, if_neg hx, if_neg hf]

end

/-! ### The flags and results as numbers (R98 to R102) -/

theorem flagByte_carryOut (a b : Byte) :
    flagByte (carryOut a b) = if a.toNat + b.toNat > 255 then 1 else 0 := by
  simp only [flagByte, carryOut, decide_eq_true_eq, gt_iff_lt]

theorem flagByte_notBorrow (a b : Byte) :
    flagByte (notBorrow a b) = if a.toNat < b.toNat then 0 else 1 := by
  by_cases h : a.toNat < b.toNat <;> simp [flagByte, notBorrow, h]

theorem flagByte_toNat (f : Bool) : (flagByte f).toNat = f.toNat := by
  cases f <;> rfl

theorem flagByte_lowBit_toNat (a : Byte) : (flagByte (lowBit a)).toNat = a.toNat % 2 := by
  rw [flagByte_toNat, lowBit, BitVec.getLsbD, Nat.toNat_testBit]
  simp

theorem flagByte_highBit_toNat (a : Byte) : (flagByte (highBit a)).toNat = a.toNat / 128 := by
  have := a.isLt
  rw [flagByte_toNat, highBit, BitVec.getLsbD, Nat.toNat_testBit]
  omega

theorem byte_sub_toNat (a b : Byte) : (a - b).toNat = (a.toNat + 256 - b.toNat) % 256 := by
  have := b.isLt
  rw [BitVec.toNat_sub]
  omega

theorem byte_shiftRight_one_toNat (a : Byte) : (a >>> 1).toNat = a.toNat / 2 :=
  BitVec.toNat_ushiftRight a 1

theorem byte_shiftLeft_one_toNat (a : Byte) : (a <<< 1).toNat = a.toNat * 2 % 256 := by
  rw [BitVec.toNat_shiftLeft, Nat.shiftLeft_eq]

/-! ### Results without a flag (R92 to R97) -/

/-- Settles O12: the one register write is that of x. -/
theorem ldImmSetsRegister : Obligations.LdImmSetsRegister := fun _ x kk =>
  ⟨decode_encode (.ldImm x kk), _, rfl, fun _ => State.setV_readV .., rfl⟩

/-- Settles O13: a byte sum is modulo 256, and the one register write is that of x. -/
theorem addImmWrapsWithoutFlag : Obligations.AddImmWrapsWithoutFlag := fun s x kk =>
  ⟨decode_encode (.addImm x kk), _, rfl,
    (congrArg BitVec.toNat setV_readV_self).trans (BitVec.toNat_add (s.readV x) kk),
    fun _ => setV_readV_of_ne, rfl⟩

/-- Settles O14: the one register write is that of x. -/
theorem ldRegCopies : Obligations.LdRegCopies := fun _ x y =>
  ⟨decode_encode (.ldReg x y), _, rfl, fun _ => State.setV_readV .., rfl⟩

/-- Settles O15: each result is the library's bitwise one, and the one register write is that of x. -/
theorem logicWritesNoFlag : Obligations.LogicWritesNoFlag := by
  refine fun s x y => ⟨decode_encode (.orReg x y), decode_encode (.andReg x y),
    decode_encode (.xorReg x y), _, _, _, rfl, rfl, rfl, fun k => ?_, fun k => ?_, fun k => ?_,
    fun r hr => ⟨setV_readV_of_ne hr, setV_readV_of_ne hr, setV_readV_of_ne hr⟩, rfl, rfl, rfl⟩
  · rw [setV_readV_self, BitVec.getLsbD_or]
  · rw [setV_readV_self, BitVec.getLsbD_and]
  · rw [setV_readV_self, BitVec.getLsbD_xor]

/-! ### The result, then the flag (R98, R99, R101) -/

/-- Settles O16: the flag is written last, so it stays also where x = F. -/
theorem addRegSumAndCarry : Obligations.AddRegSumAndCarry := by
  refine fun s x y => ⟨decode_encode (.addReg x y), _, rfl, fun hx => ?_, ?_,
    fun _ => resultThenFlag_readV_of_ne, rfl⟩
  · rw [resultThenFlag_readV_self hx, BitVec.toNat_add]
  · rw [resultThenFlag_readV_vf, flagByte_carryOut]

/-- Settles O17: SUBN is SUB with minuend and subtrahend exchanged; the flag is written last, so it
stays also where x = F. -/
theorem subtractsAndNotBorrow : Obligations.SubtractsAndNotBorrow := by
  refine fun s x y => ⟨decode_encode (.sub x y), decode_encode (.subn x y), _, _, rfl, rfl,
    fun hx => ?_, fun hx => ?_, ?_, ?_,
    fun r hx hf => ⟨resultThenFlag_readV_of_ne hx hf, resultThenFlag_readV_of_ne hx hf⟩, rfl, rfl⟩
  · rw [resultThenFlag_readV_self hx, byte_sub_toNat]
  · rw [resultThenFlag_readV_self hx, byte_sub_toNat]
  · rw [resultThenFlag_readV_vf, flagByte_notBorrow]
  · rw [resultThenFlag_readV_vf, flagByte_notBorrow]

/-! ### The flag, then the result (R100, R102) -/

/-- Settles O18: the result is written last, so it stays also where x = F (D29). -/
theorem shiftsAndShiftedOutBit : Obligations.ShiftsAndShiftedOutBit := by
  refine fun s x y => ⟨decode_encode (.shr x y), decode_encode (.shl x y), _, _, rfl, rfl,
    ?_, ?_, fun hx => ?_, fun hx => ?_,
    fun r hx hf => ⟨flagThenResult_readV_of_ne hx hf, flagThenResult_readV_of_ne hx hf⟩, rfl, rfl⟩
  · rw [flagThenResult_readV_self, byte_shiftRight_one_toNat]
  · rw [flagThenResult_readV_self, byte_shiftLeft_one_toNat]
  · rw [flagThenResult_readV_vf hx, flagByte_lowBit_toNat]
  · rw [flagThenResult_readV_vf hx, flagByte_highBit_toNat]

end Sys2Proof.Machine

/-! ## Index register and memory transfer -/

namespace Sys2Proof.Machine

/-! ### The index register (R111 to R113) -/

/-- ADD_I's sum wraps at the width of I (R112, D4). -/
theorem add_zextByte_toNat (w : Word) (b : Byte) :
    (w + zextByte b).toNat = (w.toNat + b.toNat) % 65536 := by
  have hb : (zextByte b).toNat = b.toNat := BitVec.toNat_setWidth_of_le (by decide)
  rw [BitVec.toNat_add, hb]

theorem glyphAddr_toNat (p : Config.Params) (v : Byte) :
    (glyphAddr p v).toNat = (0x50 + p.fontStride * v.toNat) % 65536 :=
  BitVec.toNat_ofNat ..

/-- Settles O19: zero extension keeps the operand's value. -/
theorem ldISetsIndex : Obligations.LdISetsIndex := fun _ nnn =>
  ⟨decode_encode (.ldI nnn), _, rfl, zext16_toNat nnn, rfl⟩

/-- Settles O20: the sum is taken at I's width, and only I is written. -/
theorem addIWrapsWithoutFlag : Obligations.AddIWrapsWithoutFlag := fun s x =>
  ⟨decode_encode (.addI x), _, rfl, add_zextByte_toNat s.i (s.readV x), rfl⟩

/-- Settles O21: the glyph address is taken at I's width, and only I is written. -/
theorem ldFComputesGlyphAddress : Obligations.LdFComputesGlyphAddress := fun s x =>
  ⟨decode_encode (.ldF x), _, rfl, glyphAddr_toNat s.params (s.readV x), rfl⟩

/-! ### What a transfer leaves (R114, R116) -/

section
variable {s : State} {x : Reg}

theorem accessFault_inside {count : Nat} (h : s.i.toNat + count ≤ 0x1000) :
    accessFault count s = none :=
  accessFault_eq_none.2 fun k hk => by rw [memSize_eq]; omega

theorem memRead_ldB_hundreds :
    (memRead (completed (.ldB x) s).mem s.i.toNat).toNat = (s.readV x).toNat / 100 := by
  have := (s.readV x).isLt
  refine (congrArg BitVec.toNat (memRead_bcd ..)).trans ?_
  rw [if_pos rfl, BitVec.toNat_ofNat]
  omega

theorem memRead_ldB_tens :
    (memRead (completed (.ldB x) s).mem (s.i.toNat + 1)).toNat = (s.readV x).toNat / 10 % 10 := by
  refine (congrArg BitVec.toNat (memRead_bcd ..)).trans ?_
  rw [if_neg (by omega), if_pos rfl, BitVec.toNat_ofNat]
  omega

theorem memRead_ldB_ones :
    (memRead (completed (.ldB x) s).mem (s.i.toNat + 2)).toNat = (s.readV x).toNat % 10 := by
  refine (congrArg BitVec.toNat (memRead_bcd ..)).trans ?_
  rw [if_neg (by omega), if_neg (by omega), if_pos rfl, BitVec.toNat_ofNat]
  omega

theorem ldRegs_readV (k : Reg) : (completed (.ldRegs x) s).readV k =
    if k ≤ x then memRead s.mem (s.i.toNat + k.val) else s.readV k :=
  regsLoaded_get s x k

end

/-- Settles O22, by whether I + 2 is inside memory. -/
theorem ldBStoresDecimalDigits : Obligations.LdBStoresDecimalDigits := by
  refine fun s x => ⟨decode_encode (.ldB x), fun h => ?_,
    fun h => accessAtI_bad _ (by decide) (Nat.add_lt_add_right h 3)⟩
  have hv := (s.readV x).isLt
  refine ⟨_, exec_completes (accessFault_inside (Nat.add_le_add_right h 3)), ?_, ?_, ?_, ?_,
    fun a => completed_memRead (i := .ldB x), rfl⟩
  · rw [memRead_ldB_hundreds, memRead_ldB_tens, memRead_ldB_ones]
    omega
  · rw [memRead_ldB_hundreds]
    omega
  · rw [memRead_ldB_tens]
    omega
  · rw [memRead_ldB_ones]
    omega

/-- Settles O23, by whether I + x is inside memory. -/
theorem stRegsStoresTheBlock : Obligations.StRegsStoresTheBlock := fun _ x =>
  ⟨decode_encode (.stRegs x),
    fun h => ⟨_, exec_completes (accessFault_inside (Nat.succ_le_succ h)),
      fun _ hk => memRead_stRegs hk rfl, fun _ => completed_memRead (i := .stRegs x), rfl⟩,
    fun h => accessAtI_bad _ x.val.succ_pos (Nat.succ_lt_succ h)⟩

/-- Settles O24, by whether I + x is inside memory. -/
theorem ldRegsLoadsTheBlock : Obligations.LdRegsLoadsTheBlock := fun _ x =>
  ⟨decode_encode (.ldRegs x),
    fun h => ⟨_, exec_completes (accessFault_inside (Nat.succ_le_succ h)),
      fun k hk => (ldRegs_readV k).trans (if_pos hk),
      fun k hk => (ldRegs_readV k).trans (if_neg (not_le.2 hk)), rfl⟩,
    fun h => accessAtI_bad _ x.val.succ_pos (Nat.succ_lt_succ h)⟩

/-- Settles O25: the load reads at I + k the byte the store put there. -/
theorem storeThenLoadRestoresRegisters : Obligations.StoreThenLoadRestoresRegisters := by
  intro s x h
  obtain ⟨-, hstore, -⟩ := stRegsStoresTheBlock s x
  obtain ⟨t, ht, hstored, -⟩ := hstore h
  refine ⟨t, ht, fun t' hmem hi => ?_⟩
  obtain ⟨-, hload, -⟩ := ldRegsLoadsTheBlock t' x
  obtain ⟨u, hu, hloaded, -⟩ := hload (hi ▸ h)
  exact ⟨u, hu, fun k hk => by rw [hloaded k hk, hmem, hi, hstored k hk]⟩

end Sys2Proof.Machine

/-! ## Display -/

namespace Sys2Proof.Machine

/-! ### Which cells a drawing toggles (R122) -/

/-- `d'` is `d` with `cells` toggled, each once, and the bookkeeping of R122 kept: a collision for a
cell turned off, a change for any cell. -/
structure Toggles (cells : Nat → Nat → Prop) (d d' : Drawing) : Prop where
  flips : ∀ {a b}, cells a b → fbGet d'.fb a b = !fbGet d.fb a b
  keeps : ∀ {a b}, ¬ cells a b → fbGet d'.fb a b = fbGet d.fb a b
  collided : d'.collided = true ↔ d.collided = true ∨ ∃ a b, cells a b ∧ fbGet d.fb a b = true
  changed : d'.changed = true ↔ d.changed = true ∨ ∃ a b, cells a b

section
variable {d d₁ d₂ : Drawing} {p q : Nat → Nat → Prop}

theorem Toggles.congr (h : Toggles p d d₁) (hpq : ∀ a b, p a b ↔ q a b) : Toggles q d d₁ := by
  obtain rfl : p = q := funext₂ fun a b => propext (hpq a b)
  exact h

theorem Toggles.refl (hp : ∀ a b, ¬ p a b) : Toggles p d d where
  flips h := absurd h (hp _ _)
  keeps _ := rfl
  collided := by simp [hp]
  changed := by simp [hp]

/-- Disjointness is what makes the collisions of the second drawing those with the first screen. -/
theorem Toggles.trans (h₁ : Toggles p d d₁) (h₂ : Toggles q d₁ d₂) (hpq : ∀ a b, q a b → ¬ p a b) :
    Toggles (fun a b => p a b ∨ q a b) d d₂ where
  flips := by
    rintro a b (hp | hq)
    · rw [h₂.keeps fun hq => hpq a b hq hp, h₁.flips hp]
    · rw [h₂.flips hq, h₁.keeps (hpq a b hq)]
  keeps h := by
    obtain ⟨hp, hq⟩ := not_or.1 h
    rw [h₂.keeps hq, h₁.keeps hp]
  collided := by
    have hscreen : ∀ a b, q a b ∧ fbGet d₁.fb a b = true ↔ q a b ∧ fbGet d.fb a b = true :=
      fun a b => and_congr_right fun hq => by rw [h₁.keeps (hpq a b hq)]
    simp only [h₂.collided, h₁.collided, hscreen, or_and_right, exists_or, or_assoc]
  changed := by simp only [h₂.changed, h₁.changed, exists_or, or_assoc]

/-- A loop toggles what its turns toggle, where no two turns toggle the same cell. -/
theorem toggles_foldl_range {f : Drawing → Nat → Drawing} {cells : Nat → Nat → Nat → Prop} {n : Nat}
    (hturn : ∀ i < n, ∀ d, Toggles (cells i) d (f d i))
    (hdisjoint : ∀ {i j}, i < j → ∀ a b, cells j a b → ¬ cells i a b) :
    Toggles (fun a b => ∃ i < n, cells i a b) d ((List.range n).foldl f d) := by
  induction n with
  | zero => exact .refl (by simp)
  | succ n ih =>
    have hbefore := ih fun i hi => hturn i (Nat.lt_succ_of_lt hi)
    rw [List.range_succ, List.foldl_append]
    refine (hbefore.trans (hturn n n.lt_succ_self _) ?_).congr fun a b => ?_
    · rintro a b hn ⟨i, hi, hcell⟩
      exact hdisjoint hi a b hn hcell
    · exact Nat.exists_lt_succ_right.symm

end

/-! ### The loops of a draw (R122) -/

theorem toggleCell_toggles (d : Drawing) {x y : Nat} (hx : x < 64) (hy : y < 32) :
    Toggles (fun a b => a = x ∧ b = y) d (toggleCell d x y) where
  flips h := (toggleCell_fb d hx hy _ _).trans (if_pos h)
  keeps h := (toggleCell_fb d hx hy _ _).trans (if_neg h)
  collided := by simp [toggleCell]
  changed := by simp [toggleCell]

/-- The cell that column `c` of a row toggles, if it is not clipped and its bit is 1. -/
def columnCell (byte : Byte) (x0 y c a b : Nat) : Prop :=
  (a = x0 + c ∧ b = y) ∧ x0 + c ≤ 63 ∧ byte.getLsbD (7 - c) = true

theorem drawColumn_toggles (byte : Byte) (x0 : Nat) {y : Nat} (hy : y < 32) (d : Drawing) (c : Nat) :
    Toggles (columnCell byte x0 y c) d (drawColumn byte x0 y d c) := by
  unfold drawColumn
  split_ifs with h
  · exact (toggleCell_toggles d (Nat.lt_succ_of_le h.1) hy).congr fun _ _ => (and_iff_left h).symm
  · exact .refl fun _ _ hcell => h hcell.2

/-- The columns of a row are apart. -/
theorem drawRow_toggles (byte : Byte) (x0 : Nat) {y : Nat} (hy : y < 32) (d : Drawing) :
    Toggles (fun a b => ∃ c < 8, columnCell byte x0 y c a b) d (drawRow byte x0 y d) :=
  toggles_foldl_range (fun c _ d => drawColumn_toggles byte x0 hy d c) fun hij _ _ hj hi =>
    hij.ne (Nat.add_left_cancel (hi.1.1.symm.trans hj.1.1))

/-- The rows of a sprite are apart. -/
theorem drawRows_toggles (m : Memory) (base x0 : Nat) {y0 rows : Nat} (h : y0 + rows ≤ 32)
    (d : Drawing) :
    Toggles (fun a b => ∃ r < rows, ∃ c < 8, columnCell (memRead m (base + r)) x0 (y0 + r) c a b) d
      (drawRows m base x0 y0 rows d) := by
  refine toggles_foldl_range (fun r hr d => drawRow_toggles _ x0 (by omega) d) ?_
  rintro i j hij a b ⟨-, -, ⟨-, hbj⟩, -⟩ ⟨-, -, ⟨-, hbi⟩, -⟩
  omega

/-! ### The sprite over the screen (R122) -/

section
variable {s : State} {x y : Reg} {n : RowCount} {cx cy : Nat}

theorem drawnRows_le (s : State) (y : Reg) (n : RowCount) :
    drawnRows s y n ≤ n.val ∧ (s.readV y).toNat % 32 + drawnRows s y n ≤ 32 := by
  unfold drawnRows
  omega

/-- A cell of the grid the sprite lays a 1 over is one that some column of some row toggles. -/
theorem spriteBit_iff : cx < 64 ∧ spriteBit s x y n cx cy = true ↔
    ∃ r < drawnRows s y n, ∃ c < 8, columnCell (memRead s.mem (s.i.toNat + r)) (spriteColumn s x)
      (spriteRow s y + r) c cx cy := by
  simp only [spriteBit, columnCell, spriteColumn, spriteRow, Bool.and_eq_true, decide_eq_true_eq]
  constructor
  · rintro ⟨hcx, ⟨hleft, hright, htop, hbottom⟩, hbit⟩
    exact ⟨cy - (s.readV y).toNat % 32, by omega, cx - (s.readV x).toNat % 64, by omega,
      ⟨by omega, by omega⟩, by omega, hbit⟩
  · rintro ⟨r, hr, c, hc, ⟨rfl, rfl⟩, hclip, hbit⟩
    refine ⟨by omega, by omega, ?_⟩
    rwa [Nat.add_sub_cancel_left, Nat.add_sub_cancel_left]

theorem spriteBit_rectangle (h : spriteBit s x y n cx cy = true) :
    (s.readV x).toNat % 64 ≤ cx ∧ cx ≤ (s.readV x).toNat % 64 + 7 ∧
      (s.readV y).toNat % 32 ≤ cy ∧ cy < (s.readV y).toNat % 32 + drawnRows s y n :=
  of_decide_eq_true (Bool.and_eq_true_iff.1 h).1

theorem spriteBit_row_lt (h : spriteBit s x y n cx cy = true) : cy < 32 := by
  obtain ⟨-, -, -, hbottom⟩ := spriteBit_rectangle h
  exact hbottom.trans_le (drawnRows_le s y n).2

theorem drawSprite_toggles (s : State) (x y : Reg) (n : RowCount) :
    Toggles (fun a b => a < 64 ∧ spriteBit s x y n a b = true) ⟨s.fb, false, false⟩
      (drawSprite s x y n) :=
  (drawRows_toggles s.mem s.i.toNat (spriteColumn s x) (drawnRows_le s y n).2 _).congr
    fun _ _ => spriteBit_iff.symm

theorem drawSprite_fb (hx : cx < 64) : fbGet (drawSprite s x y n).fb cx cy =
    (fbGet s.fb cx cy ^^ spriteBit s x y n cx cy) := by
  have htoggles := drawSprite_toggles s x y n
  cases hbit : spriteBit s x y n cx cy with
  | true => rw [htoggles.flips ⟨hx, hbit⟩, Bool.xor_true]
  | false => rw [htoggles.keeps fun h => by simp [hbit] at h, Bool.xor_false]

theorem drawSprite_collided : (drawSprite s x y n).collided = true ↔
    ∃ cx < 64, ∃ cy < 32, fbGet s.fb cx cy = true ∧ spriteBit s x y n cx cy = true := by
  rw [(drawSprite_toggles s x y n).collided]
  constructor
  · rintro (hfalse | ⟨a, b, ⟨ha, hbit⟩, hset⟩)
    · exact absurd hfalse Bool.false_ne_true
    · exact ⟨a, ha, b, spriteBit_row_lt hbit, hset, hbit⟩
  · rintro ⟨a, ha, b, -, hset, hbit⟩
    exact .inr ⟨a, b, ⟨ha, hbit⟩, hset⟩

theorem drawSprite_changed : (drawSprite s x y n).changed = true ↔
    ∃ cx < 64, ∃ cy < 32, spriteBit s x y n cx cy = true := by
  rw [(drawSprite_toggles s x y n).changed]
  constructor
  · rintro (hfalse | ⟨a, b, ha, hbit⟩)
    · exact absurd hfalse Bool.false_ne_true
    · exact ⟨a, ha, b, spriteBit_row_lt hbit, hbit⟩
  · rintro ⟨a, ha, b, -, hbit⟩
    exact .inr ⟨a, b, ha, hbit⟩

theorem drawnRows_congr {t : State} (hy : t.readV y = s.readV y) :
    drawnRows t y n = drawnRows s y n := by rw [drawnRows, drawnRows, hy]

/-- The sprite is fixed by its bytes, its address and its coordinates. -/
theorem spriteBit_congr {t : State} (hmem : t.mem = s.mem) (hi : t.i = s.i)
    (hx : t.readV x = s.readV x) (hy : t.readV y = s.readV y) :
    spriteBit t x y n cx cy = spriteBit s x y n cx cy := by
  simp only [spriteBit, drawnRows_congr hy, hmem, hi, hx, hy]

theorem completed_drw_vf : (completed (.drw x y n) s).readV .vf =
    flagByte (drawSprite s x y n).collided := (showDrawing_readV ..).trans (if_pos rfl)

end

/-- Settles O2, by whether the last drawn row is inside memory. -/
theorem drwXorsTheSpriteAndReportsCollision : Obligations.DrwXorsTheSpriteAndReportsCollision := by
  refine fun s x y n => ⟨decode_encode (.drw x y n), fun hinside => ?_, fun hrows houtside =>
    accessAtI_bad _ hrows (by rw [memSize_eq]; change 4096 < _ + drawnRows s y n; omega)⟩
  have hnofault : faultRaised (.drw x y n) s = none :=
    accessFault_eq_none.2 fun r hr => Nat.lt_succ_of_le (hinside r hr)
  refine ⟨_, exec_completes hnofault, fun cx hcx cy _ => drawSprite_fb hcx, fun hcollision => ?_,
    fun hnone => ?_, drawSprite_changed, fun r hr => (showDrawing_readV ..).trans (if_neg hr), rfl⟩
  · rw [completed_drw_vf, drawSprite_collided.2 hcollision]; rfl
  · have hfalse : (drawSprite s x y n).collided = false := by
      refine Bool.eq_false_of_not_eq_true fun hcollided => ?_
      obtain ⟨cx, hcx, cy, hcy, hset, hbit⟩ := drawSprite_collided.1 hcollided
      exact Bool.false_ne_true ((hnone cx hcx cy hcy hset).symm.trans hbit)
    rw [completed_drw_vf, hfalse]; rfl

/-- Settles O3: the second draw lays the same sprite over the screen, so it undoes the first and
collides with the cells the first one set. -/
theorem drawingTwiceRestoresTheScreen : Obligations.DrawingTwiceRestoresTheScreen := by
  intro s x y n hx hy hinside
  obtain ⟨-, hdraw, -⟩ := drwXorsTheSpriteAndReportsCollision s x y n
  obtain ⟨t, ht, hfb, -, -, -, hregs, hframe⟩ := hdraw hinside
  have hmem : t.mem = s.mem := by rw [hframe]
  have hi : t.i = s.i := by rw [hframe]
  have hsame : ∀ cx cy, spriteBit t x y n cx cy = spriteBit s x y n cx cy := fun _ _ =>
    spriteBit_congr hmem hi (hregs x hx) (hregs y hy)
  obtain ⟨-, hdraw', -⟩ := drwXorsTheSpriteAndReportsCollision t x y n
  obtain ⟨u, hu, hfb', hcollides, hmisses, -⟩ := hdraw' (by rwa [drawnRows_congr (hregs y hy), hi])
  refine ⟨t, u, ht, hu, fb_ext fun cx hcx cy hcy => ?_, ?_, fun hset => hmisses ?_⟩
  · rw [hfb' cx hcx cy hcy, hsame, hfb cx hcx cy hcy, Bool.xor_assoc, Bool.xor_self, Bool.xor_false]
  · rintro ⟨cx, hcx, cy, hcy, hbefore, hafter⟩
    refine hcollides ⟨cx, hcx, cy, hcy, hafter, ?_⟩
    rw [hsame, ← hafter, hfb cx hcx cy hcy, hbefore, Bool.false_xor]
  · intro cx hcx cy hcy hafter
    have hbit := hfb cx hcx cy hcy
    rw [hafter, hset cx hcx cy hcy hafter] at hbit
    rw [hsame]
    simpa using hbit

/-- Settles O4: a fault changes no cell, and completion only those under a 1 of the sprite. -/
theorem drawingStaysInItsRectangle : Obligations.DrawingStaysInItsRectangle := by
  refine fun s x y n => exec_of_both (fun cx hcx cy _ hchanged => ?_)
    fun _ _ _ _ _ _ hchanged => absurd rfl hchanged
  have hbit : spriteBit s x y n cx cy = true := by
    by_contra hbit
    refine hchanged ((drawSprite_fb hcx).trans ?_)
    rw [Bool.eq_false_of_not_eq_true hbit, Bool.xor_false]
  obtain ⟨hleft, hright, htop, hbottom⟩ := spriteBit_rectangle hbit
  have hrows := (drawnRows_le s y n).1
  exact ⟨hleft, hright, htop, by omega⟩

/-- Settles O1: CLS leaves the blank framebuffer. -/
theorem clsClearsTheScreen : Obligations.ClsClearsTheScreen := fun _ =>
  ⟨decode_encode .cls, _, rfl, fun cx _ cy _ => fbGet_blank cx cy, rfl⟩

end Sys2Proof.Machine

/-! ## Random byte, keys and timers -/

namespace Sys2Proof.Machine

/-! ### The sound timer (R137, D28) -/

section
variable (i : Instr) (s : State) (b : Byte)

theorem faultRaised_setSt : faultRaised i (s.setSt b) = faultRaised i s := by cases i <;> rfl

theorem faultOr_setSt (ok : State) (f : Option (FaultCause × BitVec 17)) :
    faultOr (s.setSt b) (ok.setSt b) f = (faultOr s ok f).setSt b := by cases f <;> rfl

variable {i}

theorem completed_setSt (h : ∀ x, i ≠ .ldStVx x) :
    completed i (s.setSt b) = (completed i s).setSt b := by
  cases i with
  | ldStVx x => exact absurd rfl (h x)
  | _ => rfl

theorem exec_setSt (h : ∀ x, i ≠ .ldStVx x) :
    exec i (s.setSt b) = .next ((faultOr s (completed i s) (faultRaised i s)).setSt b) := by
  rw [exec_eq, faultRaised_setSt, completed_setSt s b h, faultOr_setSt]

end

/-- Settles O30: neither the fault nor the completed state depends on ST, and LD_ST_VX overwrites
it. -/
theorem soundTimerIsSetAndNeverRead : Obligations.SoundTimerIsSetAndNeverRead := fun s x b =>
  ⟨decode_encode (.ldStVx x), ⟨_, rfl, rfl⟩, rfl, fun i h => ⟨_, exec_eq i s, exec_setSt s b h⟩⟩

/-! ### The random byte (R131) -/

/-- Settles O26: the mask acts bit by bit, and the one register write is that of x. -/
theorem rndMasksTheRandomByte : Obligations.RndMasksTheRandomByte := by
  refine fun s x kk => ⟨decode_encode (.rnd x kk), _, rfl, fun k => ?_,
    fun _ => setV_readV_of_ne, rfl⟩
  rw [setV_readV_self, BitVec.getLsbD_and]

/-! ### The keys (R130, R132, R133, R135) -/

theorem pressed_iff {keys : BitVec 16} {v : Byte} :
    pressed keys v = true ↔ v.toNat ≤ 0xF ∧ keys.getLsbD v.toNat = true := by
  rw [pressed, Bool.and_eq_true, decide_eq_true_iff]

theorem not_pressed_iff {keys : BitVec 16} {v : Byte} :
    ¬ pressed keys v = true ↔ 0xF < v.toNat ∨ keys.getLsbD v.toNat = false := by
  rw [pressed_iff, not_and_or, not_le, Bool.not_eq_true]

theorem skipTarget_not (c : Bool) (s : State) :
    skipTarget (!c) s = if c then s.pc + 2 else s.pc + 4 := by
  cases c <;> exact skipTarget_eq _ s

section
variable (x : Reg) (s : State)

theorem exec_skp : exec (.skp x) s = .next (s.beginCycle.setPc
    (if pressed s.keys (s.readV x) then s.pc + 4 else s.pc + 2)) := by
  rw [← skipTarget_eq]
  exact exec_completes rfl

theorem exec_sknp : exec (.sknp x) s = .next (s.beginCycle.setPc
    (if pressed s.keys (s.readV x) then s.pc + 2 else s.pc + 4)) := by
  rw [← skipTarget_not]
  exact exec_completes rfl

/-- Going back undoes the advance, also where that wrapped (R14). -/
theorem exec_ldVxK : exec (.ldVxK x) s = .next (s.beginCycle.setPc
    (if pressed s.keys (s.readV x) then s.pc + 2 else s.pc)) := by
  refine (exec_completes rfl).trans ?_
  rw [completed, BitVec.add_sub_cancel]

end

/-- Settles O27, by whether the key is down. -/
theorem keySkips : Obligations.KeySkips := by
  refine fun s x => ⟨decode_encode (.skp x), decode_encode (.sknp x), fun hdown => ?_, fun hup => ?_⟩
  · rw [exec_skp, exec_sknp, if_pos (pressed_iff.2 hdown), if_pos (pressed_iff.2 hdown)]
    exact ⟨rfl, rfl⟩
  · rw [exec_skp, exec_sknp, if_neg (not_pressed_iff.2 hup), if_neg (not_pressed_iff.2 hup)]
    exact ⟨rfl, rfl⟩

/-- Settles O28, by whether the key is down. -/
theorem keyWaitReexecutesUntilPressed : Obligations.KeyWaitReexecutesUntilPressed := by
  refine fun s x => ⟨decode_encode (.ldVxK x), fun hdown => ?_, fun hup => ?_⟩
  · rw [exec_ldVxK, if_pos (pressed_iff.2 hdown)]
    rfl
  · rw [exec_ldVxK, if_neg (not_pressed_iff.2 hup)]
    rfl

/-! ### The delay timer (R134, R136) -/

/-- Settles O29: the one register write is that of x, and LD_DT_VX writes none. -/
theorem delayTimerGetAndSet : Obligations.DelayTimerGetAndSet := fun _ x =>
  ⟨decode_encode (.ldVxDt x), decode_encode (.ldDtVx x),
    ⟨_, rfl, fun _ => State.setV_readV .., rfl⟩, _, rfl, rfl⟩

end Sys2Proof.Machine

/-! ## Faults, the halted core and the ticks -/

namespace Sys2Proof.Machine

section
variable {s : State}

/-! ### The one fault of an instruction (R140, R145) -/

theorem faultRaised_cause {i : Instr} {c : FaultCause} {n : BitVec 17}
    (h : faultRaised i s = some (c, n)) : c = faultOf i := by
  cases i with
  | ret | call nnn =>
    obtain ⟨-, he⟩ := Option.ite_none_right_eq_some.1 h
    cases he
    rfl
  | drw | ldB | stRegs | ldRegs => exact (accessFault_eq_some h).1
  | _ => cases h

/-! ### A faulting fetch (R142, R33) -/

/-- From 0xFFF the second byte of the word is the one that offends; from above it, the first. -/
theorem fetchFault_info {pc : Word} (h : 0xFFE < pc.toNat) :
    BitVec.ofNat 17 (max pc.toNat Config.memSize) =
      if pc = 0xFFF then 0x1000 else pc.setWidth 17 := by
  apply BitVec.eq_of_toNat_eq
  rw [memFault_info_toNat]
  split_ifs with hpc
  · rw [hpc]; rfl
  · rw [BitVec.toNat_setWidth_of_le (by decide)]
    bv_omega

theorem cycle_fetchFaults (hf : s.fault = .none) (hpc : 0xFFE < s.pc.toNat) :
    cycle s = .next (s.recordFault .fetchOutOfRange
      (if s.pc = 0xFFF then 0x1000 else s.pc.setWidth 17)) := by
  rcases cycle_cases hf with ⟨_, hp, -⟩ | ⟨_, hp, -⟩ | ⟨-, he⟩
  · exact absurd hp (Nat.not_le.2 hpc)
  · exact absurd hp (Nat.not_le.2 hpc)
  · rw [he, fetchFault_info hpc]

/-! ### Ticks and loads (R150, R164, R144) -/

theorem tick_running (hf : s.fault = .none) :
    tick s = (s.setDt (timerDown s.dt)).setSt (timerDown s.st) := if_neg (not_not.2 hf)

theorem tick_halted (hf : s.halted) : tick s = s := if_pos hf

theorem loadBytes_halted (hf : s.halted) (base : Nat) (bytes : List Byte) :
    loadBytes base bytes s = s.setLoadReply .notEnabled := if_pos (.inl hf)

section
variable {rest : List HostAction}

theorem step_tick (hp : s.pending = .tick :: rest) : step s = .next (tick (s.setPending rest)) := by
  simp only [step, performNext, hp]

theorem step_load {base : Nat} {bytes : List Byte} (hp : s.pending = .load base bytes :: rest) :
    step s = .next (loadBytes base bytes (s.setPending rest)) := by
  simp only [step, performNext, hp]

theorem step_tick_running (hf : s.fault = .none) (hp : s.pending = .tick :: rest) :
    step s = .next (((s.setPending rest).setDt (timerDown s.dt)).setSt (timerDown s.st)) :=
  (step_tick hp).trans (congrArg Host.Outcome.next (tick_running hf))

theorem step_tick_halted (hf : s.halted) (hp : s.pending = .tick :: rest) :
    step s = .next (s.setPending rest) :=
  (step_tick hp).trans (congrArg Host.Outcome.next (tick_halted hf))

theorem step_load_halted (hf : s.halted) {base : Nat} {bytes : List Byte}
    (hp : s.pending = .load base bytes :: rest) :
    step s = .next ((s.setPending rest).setLoadReply .notEnabled) :=
  (step_load hp).trans
    (congrArg Host.Outcome.next (loadBytes_halted (s := s.setPending rest) hf base bytes))

end

/-! ### What becomes of the timers (R150, R151) -/

theorem timerDown_toNat_sub (b : Byte) (n : Nat) :
    (timerDown b).toNat - n = b.toNat - (n + 1) := by
  rw [timerDown_toNat]
  omega

theorem timerDown_le (b : Byte) : (timerDown b).toNat ≤ b.toNat := by
  rw [timerDown_toNat]
  exact Nat.sub_le _ _

theorem tick_timers_le (s : State) :
    (tick s).dt.toNat ≤ s.dt.toNat ∧ (tick s).st.toNat ≤ s.st.toNat := by
  by_cases hf : s.fault = .none
  · rw [tick_running hf]
    exact ⟨timerDown_le s.dt, timerDown_le s.st⟩
  · rw [tick_halted hf]
    exact ⟨le_rfl, le_rfl⟩

theorem loadBytes_timers (base : Nat) (bytes : List Byte) (s : State) :
    (loadBytes base bytes s).dt = s.dt ∧ (loadBytes base bytes s).st = s.st := by
  unfold loadBytes
  split_ifs <;> exact ⟨rfl, rfl⟩

theorem BeginsCycle.dt_eq {s₀ : State} (hb : BeginsCycle s₀ s) : s.dt = s₀.dt := by rw [hb.core_eq]

theorem BeginsCycle.st_eq {s₀ : State} (hb : BeginsCycle s₀ s) : s.st = s₀.st := by rw [hb.core_eq]

theorem exec_timers {i : Instr} {t : State} (h : exec i s = .next t) :
    ((∀ x, i ≠ .ldDtVx x) → t.dt = s.dt) ∧ ((∀ x, i ≠ .ldStVx x) → t.st = s.st) := by
  obtain ⟨t', ht, -, -, -, htimers⟩ := eachRegisterHasItsWriters i s
  cases h.symm.trans ht
  exact htimers

/-- A cycle writes a timer only where it executes that timer's own instruction. -/
theorem cycle_timers {t : State} (h : cycle s = .next t) :
    (t.dt = s.dt ∨ ∃ x, decode (fetchWord s) = .instr (.ldDtVx x)) ∧
    (t.st = s.st ∨ ∃ x, decode (fetchWord s) = .instr (.ldStVx x)) := by
  by_cases hf : s.fault = .none
  · rcases cycle_cases hf with ⟨i, -, hd, he⟩ | ⟨w, -, -, he⟩ | ⟨-, he⟩ <;> rw [he] at h
    · obtain ⟨hdt, hst⟩ := exec_timers h
      exact ⟨or_iff_not_imp_right.2 fun hno => hdt fun x hi => hno ⟨x, by rw [hd, hi]⟩,
        or_iff_not_imp_right.2 fun hno => hst fun x hi => hno ⟨x, by rw [hd, hi]⟩⟩
    · cases h
      exact ⟨.inl rfl, .inl rfl⟩
    · cases h
      exact ⟨.inl rfl, .inl rfl⟩
  · rw [cycle_halted hf] at h
    cases h

end

/-- Settles O34, by whether the instruction raises its fault. -/
theorem faultsArePreciseAndOfOneKind : Obligations.FaultsArePreciseAndOfOneKind := by
  intro i s hf
  cases hr : faultRaised i s with
  | none =>
    exact ⟨_, exec_completes hr, .inl ⟨(completed_fault i s).trans hf, completed_faultPc i s,
      completed_faultInfo i s, completed_phase i s⟩⟩
  | some f =>
    obtain ⟨c, n⟩ := f
    obtain rfl := faultRaised_cause hr
    exact ⟨_, exec_faults hr, .inr ⟨rfl, (faultRaised_explained hr).1, rfl⟩⟩

/-- Settles O38, by induction on the number of ticks. -/
theorem ticksCountDownToZero : Obligations.TicksCountDownToZero := by
  intro n
  induction n with
  | zero =>
    intro s rest _ hp
    obtain rfl : s.pending = rest := hp
    exact ⟨s, rfl, rfl, rfl, rfl⟩
  | succ n ih =>
    intro s rest hf hp
    have hstep := step_tick_running (rest := List.replicate n HostAction.tick ++ rest) hf hp
    obtain ⟨t, hrun, hdt, hst, ht⟩ := ih (((s.setPending (List.replicate n .tick ++ rest)).setDt
      (timerDown s.dt)).setSt (timerDown s.st)) rest hf rfl
    exact ⟨t, (run_succ n hstep).trans hrun, hdt.trans (timerDown_toNat_sub s.dt n),
      hst.trans (timerDown_toNat_sub s.st n), ht⟩

/-- Settles O39, by the action the step performs. -/
theorem timersOnlyFallUntilWritten : Obligations.TimersOnlyFallUntilWritten := by
  intro s₀ t hstep
  rcases step_cases s₀ with ⟨s, hb, he⟩ | ⟨rest, -, he⟩ | ⟨base, bytes, rest, -, he⟩ |
    ⟨rest, -, he⟩ <;> rw [he] at hstep
  · obtain ⟨hdt, hst⟩ := cycle_timers hstep
    rw [← hb.dt_eq, ← hb.st_eq]
    exact ⟨hdt.imp (fun h => (congrArg BitVec.toNat h).le) fun ⟨x, hx⟩ => ⟨s, x, hb, hx⟩,
      hst.imp (fun h => (congrArg BitVec.toNat h).le) fun ⟨x, hx⟩ => ⟨s, x, hb, hx⟩⟩
  · cases hstep
    obtain ⟨hdt, hst⟩ := tick_timers_le (s₀.setPending rest)
    exact ⟨.inl hdt, .inl hst⟩
  · cases hstep
    obtain ⟨hdt, hst⟩ := loadBytes_timers base bytes (s₀.setPending rest)
    rw [hdt, hst]
    exact ⟨.inl le_rfl, .inl le_rfl⟩
  · cases hstep
    exact ⟨.inl (Nat.zero_le _), .inl (Nat.zero_le _)⟩

/-- Settles O33: the fetch faults before anything else. -/
theorem fetchAboveMemoryFaults : Obligations.FetchAboveMemoryFaults := by
  refine ⟨rfl, rfl, fun s₀ s hb hf hpc => ?_⟩
  rw [← hb.pc_eq] at hpc ⊢
  rw [hb.step_eq, cycle_fetchFaults (hb.fault_eq.trans hf) hpc]
  rfl

/-- Settles O37: both operations find the core halted. -/
theorem haltedCoreAcceptsNoTickAndNoLoad : Obligations.HaltedCoreAcceptsNoTickAndNoLoad :=
  fun _ _ hf => ⟨step_tick_halted hf, fun _ _ => step_load_halted hf⟩

end Sys2Proof.Machine

/-! ## Reset and loads -/

namespace Sys2Proof.Machine

section
variable {s : State} {base : Nat} {bytes : List Byte} {rest : List HostAction}

/-! ### Reset (R160) -/

theorem step_reset (hp : s.pending = .reset :: rest) :
    step s = .next (resetCore (s.setPending rest)) := by
  simp only [step, performNext, hp]

/-! ### What a load answers and where its bytes go (R164, D24) -/

/-- In LOADING a core that is not halted takes the load or refuses it whole, by its length. -/
theorem loadBytes_loading (hf : s.fault = .none) (hl : s.phase = .loading) :
    loadBytes base bytes s = if Config.memSize < base + bytes.length then s.setLoadReply .loadError
      else (s.setMem (memWriteBytes s.mem base bytes)).setLoadReply .accepted :=
  if_neg (by simp [hf, hl])

theorem loadBytes_accepted (hf : s.fault = .none) (hl : s.phase = .loading)
    (hfit : base + bytes.length ≤ Config.memSize) :
    loadBytes base bytes s = (s.setMem (memWriteBytes s.mem base bytes)).setLoadReply .accepted :=
  (loadBytes_loading hf hl).trans (if_neg (Nat.not_lt.2 hfit))

theorem loadBytes_tooLong (hf : s.fault = .none) (hl : s.phase = .loading)
    (hlong : Config.memSize < base + bytes.length) :
    loadBytes base bytes s = s.setLoadReply .loadError :=
  (loadBytes_loading hf hl).trans (if_pos hlong)

theorem loadBytes_running (hr : s.phase = .running) :
    loadBytes base bytes s = s.setLoadReply .notEnabled := if_pos (.inr hr)

/-- Bytes written from `base` up are read back in their order. -/
theorem memRead_memWriteBytes_inside (m : Memory) {k : Nat} (h : k < bytes.length) :
    memRead (memWriteBytes m base bytes) (base + k) = bytes[k] := by
  rw [memRead_memWriteBytes, dif_pos ⟨Nat.le_add_right _ _, Nat.add_lt_add_left h base⟩]
  simp only [Nat.add_sub_cancel_left]

end

/-- Settles O40: a reset leaves the values of the reset state, whatever the state before it. -/
theorem resetActionClearsTheCore : Obligations.ResetActionClearsTheCore := by
  intro s rest hp
  obtain ⟨hv, hi, hpc, hstack, hmem, hfb, hdt, hst, hdirty, hunk, hword, hfault, hfaultPc, hinfo,
    hphase, -, -⟩ := resetStateValues
  exact ⟨_, step_reset hp, hv, hi, hpc, hstack, hmem, hfb, hdt, hst, hdirty, hunk, hword, hfault,
    congrArg FaultCause.code hfault, hfaultPc, hinfo, hphase, rfl, rfl, rfl⟩

/-- Settles O42, by whether loading is still allowed and whether the bytes fit. -/
theorem loadPlacesItsBytes : Obligations.LoadPlacesItsBytes := by
  intro s base bytes rest hp hf
  refine ⟨fun hl hfit => ?_, fun hl hlong => ?_, fun hr => ?_⟩ <;> rw [step_load hp]
  · rw [loadBytes_accepted (s := s.setPending rest) hf hl hfit]
    exact ⟨_, rfl, fun _ => memRead_memWriteBytes_inside s.mem,
      fun _ => memRead_memWriteBytes_outside s.mem, rfl⟩
  · rw [loadBytes_tooLong (s := s.setPending rest) hf hl hlong]
    rfl
  · rw [loadBytes_running (s := s.setPending rest) hr]
    rfl

end Sys2Proof.Machine
